-- ==== Sys2Proof/Word.lean ====
section
/-! DEFINITION. The word types of the kamstrup codec block (00_scope.md R6). -/

namespace Sys2Proof

/-- A register or a command word: 32 bits (R6). -/
abbrev Word := BitVec 32

/-- A 16-bit value: the CRC accumulator, a variable id, the operand field (R6, R64). -/
abbrev Half := BitVec 16

/-- A data byte, unsigned (R6, R71). -/
abbrev Byte := BitVec 8

/-- A byte address of the register space, 0x000 to 0xFFF (R6, R51). -/
abbrev RegAddr := BitVec 12

end Sys2Proof
end

