-- ==== Sys2Proof/Machine/Operands.lean ====
section
/-! DEFINITION. Field extraction and byte-list primitives (00_scope.md R8, R9; 30_encoding.md R64, R71). -/

namespace Sys2Proof.Machine

/-- `op`, bits [31:24] of a command word (R64). -/
def opField (w : Word) : Byte := w.extractLsb' 24 8

/-- `rsv`, bits [23:16], which must be zero (R64). -/
def rsvField (w : Word) : Byte := w.extractLsb' 16 8

/-- `imm16`, bits [15:0] (R64). -/
def immField (w : Word) : Half := w.extractLsb' 0 16

/-- `hi(v)`, bits [15:8] (R8). -/
def hi (v : Half) : Byte := v.extractLsb' 8 8

/-- `lo(v)`, bits [7:0] (R8); also the B-form operand of `imm16`, with no extension (R71). -/
def lo (v : Half) : Byte := v.extractLsb' 0 8

/-- `be16(h, l)`, the big-endian reading of two bytes (R8, R57). -/
def be16 (h l : Byte) : Half := (h.setWidth 16 <<< 8) ||| l.setWidth 16

/-- `zext_32` of one bit placed at bit `i` (R8, R126). -/
def bitAt (b : Bool) (i : Nat) : Word := (BitVec.ofBool b).setWidth 32 <<< i

/-- `xs(i)` of R9. The rules that use it guard the index (R113); see log entry 12. -/
def byteAt (xs : List Byte) (i : Nat) : Byte := xs.getD i 0

/-- `xs(a..b)`, the half-open slice of R9, empty when b <= a. -/
def slice (xs : List Byte) (a b : Nat) : List Byte := (xs.drop a).take (b - a)

/-- A length as the nine-bit fields of R37, R38 and R45 hold it. -/
def len9 (n : Nat) : BitVec 9 := BitVec.ofNat 9 n

end Sys2Proof.Machine
end

