-- ==== Sys2Proof/Syntax.lean ====
section
/-! DEFINITION. The commands (30_encoding.md R66), the pseudo-instructions (R74), the registers' names
(20_memory.md R52) and the host's accesses (R75, 44_control.md R126 and R127). -/

namespace Sys2Proof

/-- The operand forms of R65. -/
inductive Form where
  | none      -- N: no operand
  | byte      -- B: one data byte
  | half      -- H: one 16-bit variable id
deriving DecidableEq, Repr

/-- The thirteen commands (R66), one constructor per row of the opcode table. The operand's width is in
its type (R71), so every term is well formed. -/
inductive Instr where
  | nop
  | crcInit
  | crcByte (b : Byte)
  | txFirst (b : Byte)
  | txBody (b : Byte)
  | txLast (b : Byte)
  | dsByte (b : Byte)
  | dsEnd
  | rxArm
  | rxByte (b : Byte)
  | rxTimeout
  | setExpid (v : Half)
  | buildReq (v : Half)
deriving DecidableEq, Repr

/-- The pseudo-instructions (R74), each with its byte operands. -/
inductive Pseudo where
  | crc (bytes : List Byte)
  | stuff (bytes : List Byte)
  | destuff (bytes : List Byte)
  | recv (bytes : List Byte)
deriving DecidableEq, Repr

/-- The registers and window words of the map (R52). `i` is the index of a window word. -/
inductive Register where
  | cmd | status | ctrl | id | param | crc | reqCrc | expVarid | dsLast
  | rxResult | rxRawlen | rxLen | rxAddr | rxType | rxVarid | rxUnit
  | rxCrcField | rxCrcCalc | rxPlLen
  | raw (i : Byte)
  | plain (i : Byte)
deriving DecidableEq, Repr

/-- One host bus access: a read or a write of `n` bytes (R11, R126, R127). -/
inductive Access where
  | read (addr : RegAddr) (n : Nat)
  | write (addr : RegAddr) (n : Nat) (value : Word)
deriving DecidableEq, Repr

/-- What the outside can do to the block: one access, or a new level of the reset input (R146). -/
inductive HostEvent where
  | access (a : Access)
  | resetLevel (asserted : Bool)
deriving DecidableEq, Repr

end Sys2Proof
end

