-- ==== Sys2Proof/Decode.lean ====
section
/-! DEFINITION. Decoding a command word and encoding a command (30_encoding.md R64 to R72). -/

namespace Sys2Proof

open Sys2Proof.Machine

/-- Why a command word is illegal (R68). -/
inductive DecodeError where
  | undefinedOpcode (op : Byte)       -- one of the 243 undefined opcodes
  | reservedNotZero (rsv : Byte)      -- nonzero bits [23:16]
  | operandNotZero (imm : Half)       -- an N-form word with an operand
  | operandTooWide (imm : Half)       -- a B-form word with nonzero imm16[15:8]
deriving DecidableEq, Repr

/-- N form: `imm16 == 0x0000` (R65). -/
def decodeNone (i : Instr) (imm : Half) : Except DecodeError Instr :=
  if imm = 0 then .ok i else .error (.operandNotZero imm)

/-- B form: the operand is `imm16[7:0]` and `imm16[15:8] == 0x00` (R65, R71). -/
def decodeByte (k : Byte → Instr) (imm : Half) : Except DecodeError Instr :=
  if hi imm = 0 then .ok (k (lo imm)) else .error (.operandTooWide imm)

/-- H form: the operand is all of `imm16`, any value (R65, R71). -/
def decodeHalf (k : Half → Instr) (imm : Half) : Except DecodeError Instr := .ok (k imm)

/-- The opcode map (R66, R72). -/
def decodeOp (op : Byte) (imm : Half) : Except DecodeError Instr :=
  match op with
  | 0x00#8 => decodeNone .nop imm
  | 0x01#8 => decodeNone .crcInit imm
  | 0x02#8 => decodeByte .crcByte imm
  | 0x10#8 => decodeByte .txFirst imm
  | 0x11#8 => decodeByte .txBody imm
  | 0x12#8 => decodeByte .txLast imm
  | 0x18#8 => decodeByte .dsByte imm
  | 0x19#8 => decodeNone .dsEnd imm
  | 0x20#8 => decodeNone .rxArm imm
  | 0x21#8 => decodeByte .rxByte imm
  | 0x22#8 => decodeNone .rxTimeout imm
  | 0x30#8 => decodeHalf .setExpid imm
  | 0x31#8 => decodeHalf .buildReq imm
  | _      => .error (.undefinedOpcode op)

/-- Decoding of a CMD write's data, total on all words (R67, R72). -/
def decode (w : Word) : Except DecodeError Instr :=
  if rsvField w = 0 then decodeOp (opField w) (immField w) else .error (.reservedNotZero (rsvField w))

/-- The word of an opcode and an operand, `(op << 24) | operand` (R73). -/
def commandWord (op : Byte) (operand : Half) : Word :=
  (op.setWidth 32 <<< 24) ||| operand.setWidth 32

/-- The word that R66 and R73 give each command. -/
def encode : Instr → Word
  | .nop        => commandWord 0x00 0
  | .crcInit    => commandWord 0x01 0
  | .crcByte b  => commandWord 0x02 (b.setWidth 16)
  | .txFirst b  => commandWord 0x10 (b.setWidth 16)
  | .txBody b   => commandWord 0x11 (b.setWidth 16)
  | .txLast b   => commandWord 0x12 (b.setWidth 16)
  | .dsByte b   => commandWord 0x18 (b.setWidth 16)
  | .dsEnd      => commandWord 0x19 0
  | .rxArm      => commandWord 0x20 0
  | .rxByte b   => commandWord 0x21 (b.setWidth 16)
  | .rxTimeout  => commandWord 0x22 0
  | .setExpid v => commandWord 0x30 v
  | .buildReq v => commandWord 0x31 v

/-- The command word of an opcode-table row given as its low `nbits` bits; higher bits are zero. -/
def tableWord (nbits w : Nat) : Word := BitVec.ofNat 32 (w % 2 ^ nbits)

/-- What the decoder reads from the table's bits `w` (one 32-bit word, R70). -/
def decodeTableWord (nbits w : Nat) : Option Instr :=
  match decode (tableWord nbits w) with
  | .ok i    => some i
  | .error _ => none

end Sys2Proof
end

