-- ==== Sys2Proof/Config.lean ====
section
/-! DEFINITION. The two free parameters of the block (00_scope.md R5, 10_state.md R50). -/

namespace Sys2Proof

/-- `RX_MAX` and `SENTINEL`, the block's only parameters (R5). `rxMaxOver9` is RX_MAX less its lower
bound 9, so that the legal range 9 to 256 holds by construction. -/
structure Params where
  rxMaxOver9 : Fin 248
  sentinel   : Option (Vector Byte 6)
deriving DecidableEq, Repr, Inhabited

/-- RX_MAX: the most raw bytes the frame reader stores, start byte included (R5, R112). -/
def Params.rxMax (p : Params) : Nat := 9 + p.rxMaxOver9.val

/-- DESIGN CHOICE (log entry 1). The parameters of the one block that `State.reset` describes. It has no
body: nothing can be proved of its value but that it is legal (R5; D16 and D23 are OPEN). -/
opaque Config.params : Params

end Sys2Proof
end

