-- ==== Sys2Proof/Machine/State.lean ====
section
/-! DEFINITION. The state of the block (10_state.md R14), its reset value (70_reset_and_hazards.md R146), and
the ways a step can stop. -/

namespace Sys2Proof.Machine

/-- The frame reader's phase (R18). -/
inductive RxState where
  | idle | sync | collect | done
deriving DecidableEq, Repr

/-- How collection ended (R36). The codes 5 to 7 are never produced, and have no constructor. -/
inductive RxEnd where
  | none | term | full | tmoSync | tmoCollect
deriving DecidableEq, Repr

/-- The result code of a frame (R36, R121). The codes 7 to 15 are never produced, and have no constructor. -/
inductive RxCode where
  | none | ok | noValue | rxFail | short | structErr | unitErr
deriving DecidableEq, Repr

/-- The nine per-frame flags of RX_RESULT (R36). -/
structure RxFlags where
  trunc   : Bool
  sent    : Bool
  fv      : Bool
  crcBad  : Bool
  addrErr : Bool
  typeErr : Bool
  vidErr  : Bool
  unitErr : Bool
  tailErr : Bool
deriving DecidableEq, Repr

/-- All nine flags 0 (R109, R146). -/
def RxFlags.clear : RxFlags := ⟨false, false, false, false, false, false, false, false, false⟩

/-- The parse results, which R26 names as one group: `rx_end`, `rx_code`, `rx_flags` and the latches `f_*`. -/
structure ParseResults where
  rxEnd     : RxEnd
  rxCode    : RxCode
  rxFlags   : RxFlags
  fAddr     : Byte
  fType     : Byte
  fVarid    : Half
  fUnit     : Byte
  fCrcField : Half
  fCrcCalc  : Half
  fPlLen    : BitVec 9
deriving DecidableEq, Repr

/-- The parse results' reset values, which RX_ARM gives them too (R26, R109). -/
def ParseResults.clear : ParseResults := ⟨.none, .none, .clear, 0, 0, 0, 0, 0, 0, 0⟩

/-- The result of one access (R154): the value of a read, the completion of a write, or the bus's error
response with the address (R132). -/
inductive Response where
  | value (v : Word)
  | completed
  | busError (addr : RegAddr)
deriving DecidableEq, Repr

/-- The architectural state (R14), under the spec's names, and after it the model's own four fields: the
parameters (log entry 1), the level of the reset input (5), the host events not yet taken (2) and the results
of the accesses so far (3). -/
structure State where
  crcAcc     : Half
  txOpen     : Bool
  dsEsc      : Bool
  dsLast     : Byte
  dsValid    : Bool
  rxState    : RxState
  raw        : List Byte
  plain      : List Byte
  parsed     : ParseResults
  reqCrc     : Half
  expVarid   : Half
  errIllegal : Bool
  errTxseq   : Bool
  errRxdrop  : Bool
  errDstrunc : Bool
  evtRxdone  : Bool
  ctrlRxie   : Bool
  ctrlErrie  : Bool
  txOut      : List Byte
  dsOut      : List Byte
  params     : Params
  inReset    : Bool
  pending    : List HostEvent
  responses  : List Response
deriving DecidableEq, Repr

/-- The block with parameters `p` right after the release of a power-on reset (R14, R146 to R148). -/
def State.resetWith (p : Params) : State where
  crcAcc     := 0
  txOpen     := false
  dsEsc      := false
  dsLast     := 0
  dsValid    := false
  rxState    := .idle
  raw        := []
  plain      := []
  parsed     := .clear
  reqCrc     := 0
  expVarid   := 0
  errIllegal := false
  errTxseq   := false
  errRxdrop  := false
  errDstrunc := false
  evtRxdone  := false
  ctrlRxie   := false
  ctrlErrie  := false
  txOut      := []
  dsOut      := []
  params     := p
  inReset    := false
  pending    := []
  responses  := []

/-- The machine right after reset, for the block whose parameters `Config.params` names. -/
def State.reset : State := .resetWith Config.params

/-- The block has no fault: it never stops or hangs because of any input (R130), and a bus error is the
outcome of an access, not of the block (R132; 93_implementation_defined.md, opening). So there is no
constructor, and no step can end in a fault. -/
inductive Fault
deriving DecidableEq, Repr

/-- Why a step has no outcome. -/
inductive Refusal where
  /-- Raised by `exec` for an instruction that has no meaning yet. Safe: nothing is claimed of it. No arm
  of this model raises it. -/
  | notModelled (mnemonic : String)
  /-- Raised by the bus for an access while the reset input is asserted: the block accepts none (R146), and
  such a run is not admitted (93_implementation_defined.md I16, `refuse`). Safe: nothing is claimed of it. -/
  | accessDuringReset (a : Access)
deriving DecidableEq, Repr

end Sys2Proof.Machine
end

