-- ==== Sys2Proof/Machine/Ops.lean ====
section
/-! DEFINITION. The shared operations on the state: the output ports (00_scope.md R11), setting the sticky
flags (R11, 60_exceptions.md R131), the reset input (70_reset_and_hazards.md R146, R147) and the record of the
accesses. The block has no traps (R137): setting an event's bit is all that "taking" it does. -/

namespace Sys2Proof.Machine

/-- `emit_tx(xs)` (R11, R23). -/
def State.emitTx (s : State) (xs : List Byte) : State := { s with txOut := s.txOut ++ xs }

/-- `emit_ds(xs)` (R11, R23). -/
def State.emitDs (s : State) (xs : List Byte) : State := { s with dsOut := s.dsOut ++ xs }

/-- `set err_illegal` (R68). -/
def State.setErrIllegal (s : State) : State := { s with errIllegal := true }

/-- `if c: set err_txseq` (R91 to R93, R105). -/
def State.setErrTxseqIf (s : State) (c : Bool) : State := { s with errTxseq := s.errTxseq || c }

/-- `set err_rxdrop` (R110). -/
def State.setErrRxdrop (s : State) : State := { s with errRxdrop := true }

/-- `if c: set err_dstrunc` (R96). -/
def State.setErrDstruncIf (s : State) (c : Bool) : State := { s with errDstrunc := s.errDstrunc || c }

/-- The state with `rest` as the host events not yet taken. -/
def State.withPending (s : State) (rest : List HostEvent) : State := { s with pending := rest }

/-- Records the result of one access (R154). -/
def State.respond (s : State) (r : Response) : State := { s with responses := s.responses ++ [r] }

/-- Every component takes its reset value, but for the output ports, which keep what they delivered (R146,
R147). What is not the block's (parameters, input, record) is kept too (log entry 7). -/
def State.applyReset (s : State) : State :=
  { State.resetWith s.params with
    txOut := s.txOut, dsOut := s.dsOut
    inReset := s.inReset, pending := s.pending, responses := s.responses }

/-- A new level of the reset input. The components change when an asserted reset is released (R146); a level
that is no change has no effect (log entry 5). -/
def State.resetLevel (s : State) (asserted : Bool) : State :=
  if asserted then { s with inReset := true }
  else if s.inReset then { s.applyReset with inReset := false }
  else s

/-- A completed outcome with the access's result recorded; a stop stays as it is. -/
def withResponse (r : Response) : Host.Outcome State Fault Refusal → Host.Outcome State Fault Refusal
  | .next t    => .next (t.respond r)
  | .fault f   => .fault f
  | .refused x => .refused x

end Sys2Proof.Machine
end

