-- ==== Sys2Proof/Machine/Crc.lean ====
section
/-! DEFINITION. The CRC-16 checksum generator (40_crc.md): CRC_INIT, CRC_BYTE. -/

namespace Sys2Proof.Machine

/-- The recurrence of R76. The shifts are taken in 32 bits, where none loses a bit, and the result is the low
16 bits. -/
def crcStep (acc : Half) (b : Byte) : Half :=
  let x1 : Byte := hi acc ^^^ b
  let x2 : Byte := x1 ^^^ (x1 >>> 4)
  let a : Word := acc.setWidth 32
  let x : Word := x2.setWidth 32
  ((a <<< 8) ^^^ (x <<< 12) ^^^ (x <<< 5) ^^^ x).setWidth 16

/-- The checksum of a byte list, first byte first, from 0x0000 (R77). -/
def crc16 (xs : List Byte) : Half := xs.foldl crcStep 0

/-- One round of the bit-serial update of R84. -/
def crcSerialRound (a : Half) : Half :=
  if a.getLsbD 15 then (a <<< 1) ^^^ 0x1021 else a <<< 1

/-- The bit-serial update, which R84 lets a realisation use in place of `crcStep`. No meaning calls it. -/
def crcStepSerial (acc : Half) (b : Byte) : Half :=
  crcSerialRound^[8] (acc ^^^ (b.setWidth 16 <<< 8))

/-- CRC_INIT (R78). -/
def execCrcInit (s : State) : Host.Outcome State Fault Refusal :=
  .next { s with crcAcc := 0 }

/-- CRC_BYTE b (R79). -/
def execCrcByte (b : Byte) (s : State) : Host.Outcome State Fault Refusal :=
  .next { s with crcAcc := crcStep s.crcAcc b }

end Sys2Proof.Machine
end

