-- ==== Sys2Proof/Machine/Protocol.lean ====
section
/-! DEFINITION. The protocol constants of 00_scope.md R7 and the ID value of 10_state.md R28. -/

namespace Sys2Proof.Machine

/-- Start token of a request frame. -/
def reqStart : Byte := 0x80

/-- Start token of a response frame. -/
def rspStart : Byte := 0x40

/-- End token of every frame. -/
def frameEnd : Byte := 0x0D

/-- The escape marker. -/
def esc : Byte := 0x1B

/-- The reserved bytes (R7, R86). -/
def reserved : List Byte := [0x06, 0x0D, 0x1B, 0x40, 0x80]

/-- ADDR. -/
def addrByte : Byte := 0x3F

/-- CMD_RTYPE: the command of a request and the type of a response. -/
def cmdRtype : Byte := 0x10

/-- REQ_B3, the unnamed byte at offset 3 of a request. -/
def reqB3 : Byte := 0x01

/-- UNIT_COUNT: the unit codes are 0 to 64. -/
def unitCount : Nat := 65

/-- MIN_RSP = HDR_LEN + 2 + 1, with HDR_LEN = 6. -/
def minRsp : Nat := 9

/-- The constant of the ID register: "KC", interface revision 1 (R28). -/
def idValue : Word := 0x4B430001

end Sys2Proof.Machine
end

