-- ==== Sys2Proof/Machine/Flags.lean ====
section
/-! DEFINITION. Every flag computation: the per-frame flags and the result code (43_frame_parser.md R113 to R121),
the sticky bits' W1C, the STATUS and RX_RESULT words, and irq (10_state.md R29, R36, R48). -/

namespace Sys2Proof.Machine

/-- SENT: the plain frame equals the six bytes of SENTINEL, and is never set when SENTINEL is none (R114). -/
def sentFlag (sentinel : Option (Vector Byte 6)) (p : List Byte) : Bool :=
  match sentinel with
  | none   => false
  | some k => p == k.toList

/-- FV: the frame holds every field (R115). -/
def fvFlag (p : List Byte) : Bool := minRsp ≤ p.length

/-- TAILERR: there is a last byte and it is not the end token (R119). -/
def tailErrFlag (p : List Byte) : Bool :=
  1 ≤ p.length && byteAt p (p.length - 1) != frameEnd

/-- UNITERR of a unit code (R118). -/
def unitErrFlag (unit : Byte) : Bool := unitCount ≤ unit.toNat

/-- The first gate that decides the frame (R121). The checksum (R116) and the end token (R119) decide nothing. -/
def resultCode (n : Nat) (f : RxFlags) : RxCode :=
  if n = 0 then .rxFail
  else if f.sent then .noValue
  else if !f.fv then .short
  else if f.addrErr || f.typeErr || f.vidErr then .structErr
  else if f.unitErr then .unitErr
  else .ok

/-- The two-bit code of `rx_state` (R29). -/
def RxState.code : RxState → Word
  | .idle => 0 | .sync => 1 | .collect => 2 | .done => 3

/-- The three-bit code of `rx_end` (R36). -/
def RxEnd.code : RxEnd → Word
  | .none => 0 | .term => 1 | .full => 2 | .tmoSync => 3 | .tmoCollect => 4

/-- The four-bit code of `rx_code` (R36). -/
def RxCode.code : RxCode → Word
  | .none => 0 | .ok => 1 | .noValue => 2 | .rxFail => 3 | .short => 4 | .structErr => 5 | .unitErr => 6

/-- The STATUS word (R29, R126). -/
def State.statusWord (s : State) : Word :=
  s.rxState.code ||| bitAt s.txOpen 2 ||| bitAt s.dsEsc 3
    ||| bitAt s.errIllegal 8 ||| bitAt s.errTxseq 9 ||| bitAt s.errRxdrop 10 ||| bitAt s.errDstrunc 11
    ||| bitAt s.evtRxdone 16

/-- The CTRL word (R30, R126). -/
def State.ctrlWord (s : State) : Word := bitAt s.ctrlRxie 0 ||| bitAt s.ctrlErrie 1

/-- The RX_RESULT word (R36, R126). -/
def ParseResults.resultWord (r : ParseResults) : Word :=
  r.rxCode.code ||| (r.rxEnd.code <<< 4)
    ||| bitAt r.rxFlags.trunc 8 ||| bitAt r.rxFlags.sent 9 ||| bitAt r.rxFlags.fv 10
    ||| bitAt r.rxFlags.crcBad 11 ||| bitAt r.rxFlags.addrErr 12 ||| bitAt r.rxFlags.typeErr 13
    ||| bitAt r.rxFlags.vidErr 14 ||| bitAt r.rxFlags.unitErr 15 ||| bitAt r.rxFlags.tailErr 16

/-- A write to STATUS: each sticky bit written as 1 is cleared, and nothing else changes (R29, R127). -/
def State.clearSticky (s : State) (v : Word) : State :=
  { s with
    errIllegal := s.errIllegal && !v.getLsbD 8
    errTxseq   := s.errTxseq && !v.getLsbD 9
    errRxdrop  := s.errRxdrop && !v.getLsbD 10
    errDstrunc := s.errDstrunc && !v.getLsbD 11
    evtRxdone  := s.evtRxdone && !v.getLsbD 16 }

/-- The interrupt output, level-sensitive and a function of the state alone (R48, R135). -/
def State.irq (s : State) : Bool :=
  (s.ctrlRxie && s.evtRxdone)
    || (s.ctrlErrie && (s.errIllegal || s.errTxseq || s.errRxdrop || s.errDstrunc))

end Sys2Proof.Machine
end

