-- ==== Sys2Proof/Machine/Stuffing.lean ====
section
/-! DEFINITION. The byte-stuffing encoder and decoder (41_stuffing.md): TX_FIRST, TX_BODY, TX_LAST, DS_BYTE,
DS_END. -/

namespace Sys2Proof.Machine

/-- `enc(b)`: the wire form of one interior byte (R88). -/
def enc (b : Byte) : List Byte := if b ∈ reserved then [esc, b ^^^ 0xFF] else [b]

/-- `stuff(f)` for the frame `first :: interior ++ [last]` (R90). Taking the ends apart leaves out the frames of
fewer than two bytes, for which `stuff` is not defined (R94, log entry 13). -/
def stuff (first : Byte) (interior : List Byte) (last : Byte) : List Byte :=
  first :: interior.flatMap enc ++ [last]

/-- `destuff(s)`: the plain list, and whether a lone trailing marker was dropped (R97). -/
def destuff : List Byte → List Byte × Bool
  | []             => ([], false)
  | [b]            => if b = esc then ([], true) else ([b], false)
  | b :: c :: rest =>
    if b = esc then ((c ^^^ 0xFF) :: (destuff rest).1, (destuff rest).2)
    else (b :: (destuff (c :: rest)).1, (destuff (c :: rest)).2)

/-- TX_FIRST b (R91): never escaped. -/
def execTxFirst (b : Byte) (s : State) : Host.Outcome State Fault Refusal :=
  .next { (s.setErrTxseqIf s.txOpen).emitTx [b] with txOpen := true }

/-- TX_BODY b (R92): escaped when reserved, whether or not a frame is open. -/
def execTxBody (b : Byte) (s : State) : Host.Outcome State Fault Refusal :=
  .next ((s.setErrTxseqIf (!s.txOpen)).emitTx (enc b))

/-- TX_LAST b (R93): never escaped. -/
def execTxLast (b : Byte) (s : State) : Host.Outcome State Fault Refusal :=
  .next { (s.setErrTxseqIf (!s.txOpen)).emitTx [b] with txOpen := false }

/-- The decoder's output of one byte (R95). -/
def State.decoderEmit (s : State) (b : Byte) : State :=
  { s.emitDs [b] with dsLast := b, dsValid := true }

/-- DS_BYTE b (R95). -/
def execDsByte (b : Byte) (s : State) : Host.Outcome State Fault Refusal :=
  .next <|
    if s.dsEsc then { s.decoderEmit (b ^^^ 0xFF) with dsEsc := false }
    else if b = esc then { s with dsEsc := true, dsValid := false }
    else s.decoderEmit b

/-- DS_END (R96): a pending marker is dropped and flagged. -/
def execDsEnd (s : State) : Host.Outcome State Fault Refusal :=
  .next { s.setErrDstruncIf s.dsEsc with dsEsc := false, dsValid := false }

end Sys2Proof.Machine
end

