-- ==== Sys2Proof/Machine/FrameReader.lean ====
section
/-! DEFINITION. The frame reader and the frame parser (43_frame_parser.md): RX_ARM, RX_BYTE, RX_TIMEOUT. -/

namespace Sys2Proof.Machine

/-- The latches and flags of a plain frame `p` of at least nine bytes (R113, R116 to R118, R120), put into the
results `r`. -/
def extractFields (p : List Byte) (expVarid : Half) (r : ParseResults) : ParseResults :=
  let n := p.length
  let varid := be16 (byteAt p 3) (byteAt p 4)
  let crcField := be16 (byteAt p (n - 3)) (byteAt p (n - 2))
  let crcCalc := crc16 (slice p 1 (n - 3))
  { r with
    fAddr := byteAt p 1
    fType := byteAt p 2
    fVarid := varid
    fUnit := byteAt p 5
    fCrcField := crcField
    fCrcCalc := crcCalc
    fPlLen := len9 (n - 9)
    rxFlags := { r.rxFlags with
      crcBad := crcField != crcCalc
      addrErr := byteAt p 1 != addrByte
      typeErr := byteAt p 2 != cmdRtype
      vidErr := varid != expVarid
      unitErr := unitErrFlag (byteAt p 5) } }

/-- The parse results of a raw frame that ended by `e`: every line of R113 that writes one. -/
def parseFrame (params : Params) (expVarid : Half) (e : RxEnd) (raw : List Byte) : ParseResults :=
  let p := (destuff raw).1
  let base : ParseResults :=
    { ParseResults.clear with
      rxEnd := e
      rxFlags := { RxFlags.clear with
        trunc := (destuff raw).2
        sent := sentFlag params.sentinel p
        fv := fvFlag p
        tailErr := tailErrFlag p } }
  let r := if fvFlag p then extractFields p expVarid base else base
  { r with rxCode := resultCode p.length r.rxFlags }

/-- `finish(e)`: the parse, in the step that ended collection (R113). -/
def State.finish (s : State) (e : RxEnd) : State :=
  { s with
    plain := (destuff s.raw).1
    parsed := parseFrame s.params s.expVarid e s.raw
    rxState := .done
    evtRxdone := true }

/-- RX_ARM (R109): legal in every state, and it clears neither `evt_rxdone` nor `err_rxdrop`. -/
def execRxArm (s : State) : Host.Outcome State Fault Refusal :=
  .next { s with rxState := .sync, raw := [], plain := [], parsed := .clear }

/-- A byte appended in COLLECT, and the two ends it can bring; the end token wins over a full buffer (R110,
R112). -/
def State.collectByte (s : State) (b : Byte) : State :=
  let t := { s with raw := s.raw ++ [b] }
  if b = frameEnd then t.finish .term
  else if t.raw.length = s.params.rxMax then t.finish .full
  else t

/-- RX_BYTE b (R108, R110). -/
def execRxByte (b : Byte) (s : State) : Host.Outcome State Fault Refusal :=
  match s.rxState with
  | .idle    => .next s.setErrRxdrop
  | .done    => .next s.setErrRxdrop
  | .sync    => .next (if b = rspStart then { s with raw := [b], rxState := .collect } else s)
  | .collect => .next (s.collectByte b)

/-- RX_TIMEOUT (R108, R111). -/
def execRxTimeout (s : State) : Host.Outcome State Fault Refusal :=
  match s.rxState with
  | .idle    => .next s
  | .done    => .next s
  | .sync    => .next (s.finish .tmoSync)
  | .collect => .next (s.finish .tmoCollect)

end Sys2Proof.Machine
end

