-- ==== Sys2Proof/Machine/Request.lean ====
section
/-! DEFINITION. The request framer and the parser's setup (42_request.md): SET_EXPID, BUILD_REQ. -/

namespace Sys2Proof.Machine

/-- The five bytes the request's checksum covers (R101). -/
def reqBody (v : Half) : List Byte := [addrByte, cmdRtype, reqB3, hi v, lo v]

/-- The interior of the request frame, offsets 1 to 7 (R101, R102). -/
def reqInterior (v : Half) : List Byte :=
  let c := crc16 (reqBody v)
  reqBody v ++ [hi c, lo c]

/-- `req_frame(v)`, the plain nine-byte request (R101, R102). -/
def reqFrame (v : Half) : List Byte := reqStart :: reqInterior v ++ [frameEnd]

/-- `stuff(req_frame(v))`, the request's wire form (R90, R102). -/
def reqWire (v : Half) : List Byte := stuff reqStart (reqInterior v) frameEnd

/-- SET_EXPID v (R104). -/
def execSetExpid (v : Half) (s : State) : Host.Outcome State Fault Refusal :=
  .next { s with expVarid := v }

/-- BUILD_REQ v (R105). -/
def execBuildReq (v : Half) (s : State) : Host.Outcome State Fault Refusal :=
  .next { (s.setErrTxseqIf s.txOpen).emitTx (reqWire v) with
    reqCrc := be16 (byteAt (reqFrame v) 6) (byteAt (reqFrame v) 7)
    expVarid := v
    txOpen := false }

end Sys2Proof.Machine
end

