-- ==== Sys2Proof/Machine/Dispatch.lean ====
section
/-! DEFINITION. The dispatch of a command to its meaning (30_encoding.md R72). -/

namespace Sys2Proof.Machine

def exec (i : Instr) (s : State) : Host.Outcome State Fault Refusal :=
  match i with
  | .nop => Sys2Proof.Machine.execNop s
  | .crcInit => Sys2Proof.Machine.execCrcInit s
  | .crcByte b => Sys2Proof.Machine.execCrcByte b s
  | .txFirst b => Sys2Proof.Machine.execTxFirst b s
  | .txBody b => Sys2Proof.Machine.execTxBody b s
  | .txLast b => Sys2Proof.Machine.execTxLast b s
  | .dsByte b => Sys2Proof.Machine.execDsByte b s
  | .dsEnd => Sys2Proof.Machine.execDsEnd s
  | .rxArm => Sys2Proof.Machine.execRxArm s
  | .rxByte b => Sys2Proof.Machine.execRxByte b s
  | .rxTimeout => Sys2Proof.Machine.execRxTimeout s
  | .setExpid v => Sys2Proof.Machine.execSetExpid v s
  | .buildReq v => Sys2Proof.Machine.execBuildReq v s

end Sys2Proof.Machine
end

