-- ==== Sys2Proof/Machine/Bus.lean ====
section
/-! DEFINITION. The register space and the host's accesses to it (20_memory.md R51 to R55, 44_control.md R126 and
R127), and how the block takes the host's next event (00_scope.md R12). -/

namespace Sys2Proof.Machine

/-- The address map (R52): the register or window word at an aligned address, nothing where it is unmapped. -/
def registerAt (addr : RegAddr) : Option Register :=
  match addr with
  | 0x000#12 => some .cmd
  | 0x004#12 => some .status
  | 0x008#12 => some .ctrl
  | 0x00C#12 => some .id
  | 0x010#12 => some .param
  | 0x014#12 => some .crc
  | 0x018#12 => some .reqCrc
  | 0x01C#12 => some .expVarid
  | 0x020#12 => some .dsLast
  | 0x024#12 => some .rxResult
  | 0x028#12 => some .rxRawlen
  | 0x02C#12 => some .rxLen
  | 0x030#12 => some .rxAddr
  | 0x034#12 => some .rxType
  | 0x038#12 => some .rxVarid
  | 0x03C#12 => some .rxUnit
  | 0x040#12 => some .rxCrcField
  | 0x044#12 => some .rxCrcCalc
  | 0x048#12 => some .rxPlLen
  | a =>
    if 0x400 ≤ a.toNat ∧ a.toNat < 0x800 then some (.raw (BitVec.ofNat 8 ((a.toNat - 0x400) / 4)))
    else if 0x800 ≤ a.toNat ∧ a.toNat < 0xC00 then some (.plain (BitVec.ofNat 8 ((a.toNat - 0x800) / 4)))
    else none

/-- A register's offset (R27 to R47, R52). -/
def offsetOf : Register → RegAddr
  | .cmd        => 0x000
  | .status     => 0x004
  | .ctrl       => 0x008
  | .id         => 0x00C
  | .param      => 0x010
  | .crc        => 0x014
  | .reqCrc     => 0x018
  | .expVarid   => 0x01C
  | .dsLast     => 0x020
  | .rxResult   => 0x024
  | .rxRawlen   => 0x028
  | .rxLen      => 0x02C
  | .rxAddr     => 0x030
  | .rxType     => 0x034
  | .rxVarid    => 0x038
  | .rxUnit     => 0x03C
  | .rxCrcField => 0x040
  | .rxCrcCalc  => 0x044
  | .rxPlLen    => 0x048
  | .raw i      => 0x400 + i.setWidth 12 * 4
  | .plain i    => 0x800 + i.setWidth 12 * 4

/-- One word of a buffer window: the byte at `i`, and 0 beyond the length, never a stale byte (R46, R47). -/
def windowWord (xs : List Byte) (i : Byte) : Word :=
  if i.toNat < xs.length then (byteAt xs i.toNat).setWidth 32 else 0

/-- The value a register reads as (R27 to R47, R126). -/
def State.readRegister (s : State) : Register → Word
  | .cmd        => 0
  | .status     => s.statusWord
  | .ctrl       => s.ctrlWord
  | .id         => idValue
  | .param      => (len9 s.params.rxMax).setWidth 32
  | .crc        => s.crcAcc.setWidth 32
  | .reqCrc     => s.reqCrc.setWidth 32
  | .expVarid   => s.expVarid.setWidth 32
  | .dsLast     => bitAt s.dsValid 8 ||| s.dsLast.setWidth 32
  | .rxResult   => s.parsed.resultWord
  | .rxRawlen   => (len9 s.raw.length).setWidth 32
  | .rxLen      => (len9 s.plain.length).setWidth 32
  | .rxAddr     => s.parsed.fAddr.setWidth 32
  | .rxType     => s.parsed.fType.setWidth 32
  | .rxVarid    => s.parsed.fVarid.setWidth 32
  | .rxUnit     => s.parsed.fUnit.setWidth 32
  | .rxCrcField => s.parsed.fCrcField.setWidth 32
  | .rxCrcCalc  => s.parsed.fCrcCalc.setWidth 32
  | .rxPlLen    => s.parsed.fPlLen.setWidth 32
  | .raw i      => windowWord s.raw i
  | .plain i    => windowWord s.plain i

/-- `value(addr)`: an unmapped word reads 0 (R53, R126). -/
def State.readWord (s : State) (addr : RegAddr) : Word :=
  match registerAt addr with
  | some r => s.readRegister r
  | none   => 0

/-- The only access the block accepts is four bytes wide at a multiple of four (R55). -/
def accessOk (addr : RegAddr) (n : Nat) : Bool := n == 4 && addr.extractLsb' 0 2 == 0

/-- `MemRead(addr, n)`: the value or the bus error; a read changes no state (R54, R126). -/
def State.memRead (s : State) (addr : RegAddr) (n : Nat) : Response :=
  if accessOk addr n then .value (s.readWord addr) else .busError addr

/-- A CMD write of `w`: the command, or `set err_illegal` and nothing else (R68, R72). -/
def runCommand (w : Word) (s : State) : Host.Outcome State Fault Refusal :=
  match decode w with
  | .ok i    => exec i s
  | .error _ => .next s.setErrIllegal

/-- A write to a register other than CMD (R127). Read-only registers, window words and unmapped words ignore it
(R53). -/
def State.writeRegister (s : State) (r : Option Register) (v : Word) : State :=
  match r with
  | some .status   => s.clearSticky v
  | some .ctrl     => { s with ctrlRxie := v.getLsbD 0, ctrlErrie := v.getLsbD 1 }
  | some .expVarid => { s with expVarid := v.setWidth 16 }
  | _              => s

/-- `MemWrite(addr, n, v)` (R127). -/
def memWrite (addr : RegAddr) (n : Nat) (v : Word) (s : State) : Host.Outcome State Fault Refusal :=
  if accessOk addr n then
    withResponse .completed <|
      if registerAt addr = some .cmd then runCommand v s
      else .next (s.writeRegister (registerAt addr) v)
  else .next (s.respond (.busError addr))

/-- One host access, with its result recorded (R12, R154). -/
def runAccess (a : Access) (s : State) : Host.Outcome State Fault Refusal :=
  match a with
  | .read addr n    => .next (s.respond (s.memRead addr n))
  | .write addr n v => memWrite addr n v s

/-- One host event. The block accepts no access while reset is asserted (R146, I16). -/
def runEvent (e : HostEvent) (s : State) : Host.Outcome State Fault Refusal :=
  match e with
  | .resetLevel asserted => .next (s.resetLevel asserted)
  | .access a            => if s.inReset then .refused (.accessDuringReset a) else runAccess a s

/-- The block takes the host's oldest event; it does nothing between accesses (R12, R58, R145). -/
def takeEvent (s : State) : Host.Outcome State Fault Refusal :=
  match s.pending with
  | []        => .next s
  | e :: rest => runEvent e (s.withPending rest)

/-- The host's write of a command word to CMD (R73). -/
def commandAccess (w : Word) : Access := .write 0x000 4 w

/-- The state in which the host's next access, ahead of all others, is the write of the command word `w`, with
reset released so that the access is accepted (log entry 8). -/
def State.placeCommand (s : State) (w : Word) : State :=
  { s with pending := .access (commandAccess w) :: s.pending, inReset := false }

/-- Several commands one after the other, as the host's writes to CMD run them (R58). -/
def execAll : List Instr → State → Host.Outcome State Fault Refusal
  | [], s => .next s
  | i :: is, s =>
    match exec i s with
    | .next t    => execAll is t
    | .fault f   => .fault f
    | .refused r => .refused r

end Sys2Proof.Machine
end

