-- ==== Sys2Proof/Machine/Step.lean ====
section
/-! DEFINITION. One step of the block: the processing of one host event (00_scope.md R12). -/

namespace Sys2Proof.Machine

/-- One step (R12). -/
def step (s : State) : Host.Outcome State Fault Refusal := takeEvent s

/-- `s` with the command word of the table's bits `w` as the host's next access (log entry 8). -/
def State.withFetchWord (s : State) (nbits w : Nat) : State := s.placeCommand (tableWord nbits w)

end Sys2Proof.Machine
end

