-- ==== Sys2Proof/Machine/Assembler.lean ====
section
/-! DEFINITION. The pseudo-instructions and the textual syntax of programs (30_encoding.md R73 to R75). -/

namespace Sys2Proof.Machine

/-- The command sequence of a pseudo-instruction (R74). STUFF of fewer than two bytes has none (R94). -/
def expand : Pseudo → Option (List Instr)
  | .crc bytes            => some (.crcInit :: bytes.map .crcByte)
  | .stuff []             => none
  | .stuff (first :: more) =>
    match more.getLast? with
    | none      => none
    | some last => some (.txFirst first :: more.dropLast.map .txBody ++ [.txLast last])
  | .destuff bytes        => some (bytes.map .dsByte ++ [.dsEnd])
  | .recv bytes           => some (.rxArm :: bytes.map .rxByte)

/-- The tokens of a line: separated by blanks and commas, up to a comment's `;` (R73). `word` holds the
characters of the token being read. -/
def tokens (word : List Char) : List Char → List (List Char)
  | []      => if word.isEmpty then [] else [word]
  | c :: cs =>
    if c == ';' then (if word.isEmpty then [] else [word])
    else if c == ' ' || c == '\t' || c == ',' then
      (if word.isEmpty then [] else [word]) ++ tokens [] cs
    else tokens (word ++ [c]) cs

/-- The value of a digit in base `base`. -/
def digit (base : Nat) (c : Char) : Option Nat :=
  let n := c.toNat
  let d := if 0x30 ≤ n ∧ n ≤ 0x39 then n - 0x30
    else if 0x41 ≤ n ∧ n ≤ 0x46 then n - 0x37
    else if 0x61 ≤ n ∧ n ≤ 0x66 then n - 0x57
    else base
  if d < base then some d else none

/-- Digits in base `base`, with `_` between digits ignored (log entry 14). -/
def digits (base acc : Nat) : List Char → Option Nat
  | []      => some acc
  | c :: cs =>
    if c == '_' then digits base acc cs
    else match digit base c with
      | some d => digits base (acc * base + d) cs
      | none   => none

/-- A number: hexadecimal after `0x` (R8), else decimal. It begins with a digit. -/
def number : List Char → Option Nat
  | '0' :: 'x' :: c :: cs => (digit 16 c).bind fun d => digits 16 d cs
  | c :: cs               => (digit 10 c).bind fun d => digits 10 d cs
  | []                    => none

/-- A command's operand, a hexadecimal number no greater than `most` (R73). -/
def operand (most : Nat) : List Char → Option Nat
  | '0' :: 'x' :: cs =>
    match number ('0' :: 'x' :: cs) with
    | some n => if n ≤ most then some n else none
    | none   => none
  | _ => none

/-- The N-form mnemonics (R66). -/
def noneMnemonics : List (String × Instr) :=
  [("NOP", .nop), ("CRC_INIT", .crcInit), ("DS_END", .dsEnd), ("RX_ARM", .rxArm), ("RX_TIMEOUT", .rxTimeout)]

/-- The B-form mnemonics (R66). -/
def byteMnemonics : List (String × (Byte → Instr)) :=
  [("CRC_BYTE", .crcByte), ("TX_FIRST", .txFirst), ("TX_BODY", .txBody), ("TX_LAST", .txLast),
   ("DS_BYTE", .dsByte), ("RX_BYTE", .rxByte)]

/-- The H-form mnemonics (R66). -/
def halfMnemonics : List (String × (Half → Instr)) :=
  [("SET_EXPID", .setExpid), ("BUILD_REQ", .buildReq)]

/-- The pseudo-instructions' names (R74). -/
def pseudoNames : List (String × (List Byte → Pseudo)) :=
  [("CRC", .crc), ("STUFF", .stuff), ("DESTUFF", .destuff), ("RECV", .recv)]

/-- The registers' names (R52, R75). -/
def registerNames : List (String × Register) :=
  [("CMD", .cmd), ("STATUS", .status), ("CTRL", .ctrl), ("ID", .id), ("PARAM", .param), ("CRC", .crc),
   ("REQ_CRC", .reqCrc), ("EXP_VARID", .expVarid), ("DS_LAST", .dsLast), ("RX_RESULT", .rxResult),
   ("RX_RAWLEN", .rxRawlen), ("RX_LEN", .rxLen), ("RX_ADDR", .rxAddr), ("RX_TYPE", .rxType),
   ("RX_VARID", .rxVarid), ("RX_UNIT", .rxUnit), ("RX_CRC_FIELD", .rxCrcField),
   ("RX_CRC_CALC", .rxCrcCalc), ("RX_PL_LEN", .rxPlLen)]

/-- The entry of a table under the name that `tok` spells. -/
def named {α : Type} (table : List (String × α)) (tok : List Char) : Option α :=
  (table.find? fun e => e.1.toList == tok).map Prod.snd

/-- The index in a window word's name, `RAW[i]` or `PLAIN[i]` (R46, R47). -/
def windowIndex (window : String) (tok : List Char) : Option Byte :=
  let head := window.toList ++ ['[']
  if head.isPrefixOf tok && tok.getLast? == some ']' then
    match number (tok.drop head.length).dropLast with
    | some i => if i < 256 then some (BitVec.ofNat 8 i) else none
    | none   => none
  else none

/-- An address: a register's name or a number below 0x1000 (R75). -/
def address (tok : List Char) : Option RegAddr :=
  match named registerNames tok with
  | some r => some (offsetOf r)
  | none   =>
    match windowIndex "RAW" tok, windowIndex "PLAIN" tok with
    | some i, _    => some (offsetOf (.raw i))
    | none, some i => some (offsetOf (.plain i))
    | none, none   =>
      match number tok with
      | some n => if n < 0x1000 then some (BitVec.ofNat 12 n) else none
      | none   => none

/-- Every token as a byte operand. -/
def byteOperands : List (List Char) → Option (List Byte)
  | []        => some []
  | tok :: ts =>
    match operand 0xFF tok, byteOperands ts with
    | some b, some bs => some (BitVec.ofNat 8 b :: bs)
    | _, _            => none

/-- A command line: the mnemonic and exactly the operand its form has (R73). -/
def command (name : List Char) (args : List (List Char)) : Option Instr :=
  match named noneMnemonics name, named byteMnemonics name, named halfMnemonics name, args with
  | some i, _, _, []       => some i
  | _, some k, _, [a]      => (operand 0xFF a).map fun b => k (BitVec.ofNat 8 b)
  | _, _, some k, [a]      => (operand 0xFFFF a).map fun v => k (BitVec.ofNat 16 v)
  | _, _, _, _             => none

/-- The commands of a line: one command, or a pseudo-instruction's expansion (R73, R74). -/
def commands (name : List Char) (args : List (List Char)) : Option (List Instr) :=
  match command name args with
  | some i => some [i]
  | none   =>
    match named pseudoNames name, byteOperands args with
    | some k, some bytes => expand (k bytes)
    | _, _               => none

/-- `WR addr, value` (R75). -/
def writeLine (addr value : List Char) : Option Access :=
  match address addr, number value with
  | some a, some v => if v < 2 ^ 32 then some (.write a 4 (BitVec.ofNat 32 v)) else none
  | _, _           => none

/-- The accesses a program line stands for (R73 to R75), none where the line is not in the syntax. What follows
`->` in an `RD` line is the value the rules give, and is no part of the access. -/
def assembleLine (line : String) : Option (List Access) :=
  match tokens [] line.toList with
  | []           => some []
  | name :: args =>
    if name == "WR".toList then
      match args with
      | [addr, value] => (writeLine addr value).map ([·])
      | _             => none
    else if name == "RD".toList then
      match args with
      | [addr]              => (address addr).map fun a => [.read a 4]
      | addr :: arrow :: _  => if arrow == "->".toList then (address addr).map fun a => [.read a 4] else none
      | []                  => none
    else (commands name args).map fun is => is.map fun i => commandAccess (encode i)

/-- The accesses of a program, line by line (R73). -/
def assemble : List String → Option (List Access)
  | []            => some []
  | line :: lines =>
    match assembleLine line, assemble lines with
    | some a, some as => some (a ++ as)
    | _, _            => none

/-- The state with a program's accesses handed to the block after those already waiting (R58). -/
def State.feed (s : State) (as : List Access) : State :=
  { s with pending := s.pending ++ as.map .access }

end Sys2Proof.Machine
end

