-- ==== Sys2Proof/Safety.lean ====
section
/-! DEFINITION. The terms the statements use: the invariant of the state, what the block faces next, what an
outside reader sees of a run (70_reset_and_hazards.md R154), and a safe run. -/

namespace Sys2Proof.Machine

/-- Nothing has been collected: both buffers empty, every parse result 0 (R25, R26). -/
def State.Cleared (s : State) : Prop := s.raw = [] ∧ s.plain = [] ∧ s.parsed = .clear

/-- Bytes are being collected: the buffer begins with the start token, holds no end token and is not full
(R110, R112), and there is no parse result yet (R25, R26). -/
def State.Collecting (s : State) : Prop :=
  s.raw.head? = some rspStart ∧ frameEnd ∉ s.raw ∧ s.raw.length < s.params.rxMax
    ∧ s.plain = [] ∧ s.parsed = .clear

/-- What each way of ending says of the raw bytes (R110 to R112). -/
def EndedBy (rxMax : Nat) (raw : List Byte) : RxEnd → Prop
  | .none       => False
  | .term       => raw.head? = some rspStart ∧ raw.getLast? = some frameEnd ∧ frameEnd ∉ raw.dropLast
                    ∧ raw.length ≤ rxMax
  | .full       => raw.head? = some rspStart ∧ frameEnd ∉ raw ∧ raw.length = rxMax
  | .tmoSync    => raw = []
  | .tmoCollect => raw.head? = some rspStart ∧ frameEnd ∉ raw ∧ raw.length < rxMax

/-- A frame has been parsed: the plain bytes are the raw bytes de-stuffed (R25), and the results are their parse
under the id that was expected when collection ended (R113, R122). -/
def State.Parsed (s : State) : Prop :=
  s.plain = (destuff s.raw).1 ∧ EndedBy s.params.rxMax s.raw s.parsed.rxEnd
    ∧ ∃ v, s.parsed = parseFrame s.params v s.parsed.rxEnd s.raw

/-- What each phase of the frame reader says of its buffers and results (R18, R24 to R26). -/
def State.ReaderInv (s : State) : Prop :=
  match s.rxState with
  | .idle    => s.Cleared
  | .sync    => s.Cleared
  | .collect => s.Collecting
  | .done    => s.Parsed

/-- `ds_valid` says that `ds_last` is the byte the decoder emitted last, and no marker is pending then (R17). -/
def State.DecoderInv (s : State) : Prop :=
  s.dsValid = true → s.dsOut.getLast? = some s.dsLast ∧ s.dsEsc = false

/-- The invariant of the block's state. -/
def State.Inv (s : State) : Prop := s.ReaderInv ∧ s.DecoderInv

/-- The next thing the block does is the access `a`, which it accepts; `rest` waits after it. -/
def State.Faces (s : State) (a : Access) (rest : List HostEvent) : Prop :=
  s.inReset = false ∧ s.pending = .access a :: rest

/-- The next thing the block does is the command `i`. -/
def State.FacesCommand (s : State) (i : Instr) : Prop :=
  ∃ w rest, s.Faces (commandAccess w) rest ∧ decode w = .ok i

/-- The next thing the block does is to come out of reset. -/
def State.LeavesReset (s : State) : Prop :=
  s.inReset = true ∧ ∃ rest, s.pending = .resetLevel false :: rest

/-- What a run shows (R154): every word of the register space, the two output lists, the results of the
accesses. It says nothing of time, the channel or what the host did with irq. -/
structure Observation where
  words     : List Word
  txOut     : List Byte
  dsOut     : List Byte
  responses : List Response
deriving DecidableEq, Repr

/-- The observation of a state (R154). -/
def State.observe (s : State) : Observation where
  words     := (List.range 1024).map fun k => s.readWord (BitVec.ofNat 12 (4 * k))
  txOut     := s.txOut
  dsOut     := s.dsOut
  responses := s.responses

/-- A step is safe when the host does not access the block while reset is asserted (R146, I16). It is the one
duty whose breach leaves a step without an outcome (R130, R153). -/
def State.SafeStep (s : State) : Prop :=
  s.inReset = true → ∀ a rest, s.pending ≠ .access a :: rest

end Sys2Proof.Machine
end

