-- ==== Sys2Proof/WellFormed.lean ====
section
/-! DEFINITION. What is well formed before anything runs: a command word (30_encoding.md R67), a
pseudo-instruction (R74, 41_stuffing.md R94), an access (20_memory.md R55). A term of `Instr` needs no check
of its own: the widths of its operands are in its type. Decoding and the bus do not call these checks; that
they agree with them is stated. -/

namespace Sys2Proof

open Sys2Proof.Machine

/-- The form of each defined opcode, and nothing for the 243 undefined ones (R66). -/
def formOf (op : Byte) : Option Form :=
  if op ∈ [0x00#8, 0x01#8, 0x19#8, 0x20#8, 0x22#8] then some .none
  else if op ∈ [0x02#8, 0x10#8, 0x11#8, 0x12#8, 0x18#8, 0x21#8] then some .byte
  else if op ∈ [0x30#8, 0x31#8] then some .half
  else none

/-- `legal(w)` (R67). -/
def legal (w : Word) : Bool :=
  match formOf (opField w) with
  | none       => false
  | some .none => rsvField w == 0 && immField w == 0
  | some .byte => rsvField w == 0 && hi (immField w) == 0
  | some .half => rsvField w == 0

/-- STUFF needs at least two bytes (R74, R94); the other pseudo-instructions take any list. -/
def Pseudo.wellFormed : Pseudo → Bool
  | .crc _ | .destuff _ | .recv _ => true
  | .stuff bytes => 2 ≤ bytes.length

/-- The only legal access is four bytes wide at a multiple of four (R55). -/
def Access.wellFormed : Access → Bool
  | .read addr n | .write addr n _ => n == 4 && addr.toNat % 4 == 0

end Sys2Proof
end

