-- ==== Sys2Proof/Certificates/Slice0/Obligations.lean ====
section
/-! DEFINITION. The statements for the provers, each from the rules of spec/ that its docstring names. -/

open Sys2Proof Sys2Proof.Machine

/-! ### Encoding -/

/-- R73 and the words of 95_test_vectors.md: what a few words of the table decode to. -/
def Obligations.DecodesTheWordsOfTheSpec : Prop :=
  decode 0x00000000 = .ok .nop ∧ decode 0x0200003F = .ok (.crcByte 0x3F)
    ∧ decode 0x110000FF = .ok (.txBody 0xFF) ∧ decode 0x18000041 = .ok (.dsByte 0x41)
    ∧ decode 0x21000040 = .ok (.rxByte 0x40) ∧ decode 0x22000000 = .ok .rxTimeout
    ∧ decode 0x30000D40 = .ok (.setExpid 0x0D40) ∧ decode 0x310003FF = .ok (.buildReq 0x03FF)
    ∧ decode 0x03000000 = .error (.undefinedOpcode 0x03)
    ∧ decode 0x21FF0040 = .error (.reservedNotZero 0xFF)
    ∧ decode 0x22000005 = .error (.operandNotZero 0x0005)
    ∧ decode 0x02000100 = .error (.operandTooWide 0x0100)

/-- R64 to R66, R71, R73: the decoder reads back every command the encoder writes, with every operand. -/
def Obligations.DecodeReadsBackEveryCommand : Prop :=
  ∀ i : Instr, decode (encode i) = .ok i

/-- R64, R66, R70: a command has one word only, so the encoder writes back every word the decoder accepts. -/
def Obligations.EncodeWritesBackEveryAcceptedWord : Prop :=
  ∀ (w : Word) (i : Instr), decode w = .ok i → encode i = w

/-- R67: the decoder accepts exactly the words that the legality check of the spec accepts. -/
def Obligations.DecodeAcceptsExactlyTheLegalWords : Prop :=
  ∀ w : Word, (∃ i, decode w = .ok i) ↔
    (w.extractLsb' 24 8 ∈ [0x00#8, 0x01#8, 0x02#8, 0x10#8, 0x11#8, 0x12#8, 0x18#8, 0x19#8, 0x20#8, 0x21#8, 0x22#8,
        0x30#8, 0x31#8]
      ∧ w.extractLsb' 16 8 = 0x00#8
      ∧ (formOf (w.extractLsb' 24 8) = some .none → w.extractLsb' 0 16 = 0x0000#16)
      ∧ (formOf (w.extractLsb' 24 8) = some .byte → w.extractLsb' 8 8 = 0x00#8))

/-- R68: an illegal word written to CMD sets `err_illegal` and nothing else, and the write completes. -/
def Obligations.IllegalCommandSetsOnlyErrIllegal : Prop :=
  ∀ (s : State) (w : Word) (rest : List HostEvent), s.Faces (commandAccess w) rest → legal w = false →
    step s = .next { s with
      pending := rest, errIllegal := true, responses := s.responses ++ [.completed] }

/-- R72, R12: when the word the host writes to CMD decodes to `i`, the step takes the write from the host's events,
runs `exec i`, and records that the write completed. -/
def Obligations.StepRunsTheDecodedCommand : Prop :=
  ∀ (s : State) (w : Word) (rest : List HostEvent) (i : Instr),
    s.Faces (commandAccess w) rest → decode w = .ok i →
    step s = withResponse .completed (exec i { s with pending := rest })

/-! ### What each command does: its result and its frame -/

/-- R125: NOP is the word of zeros and changes nothing; a word with NOP's opcode and any other bit set is illegal. -/
def Obligations.NopLeavesTheStateUnchanged : Prop :=
  decode 0x00000000 = .ok .nop ∧ (∀ s : State, exec .nop s = .next s)
    ∧ ∀ w : Word, w.extractLsb' 24 8 = 0x00#8 → w ≠ 0 → legal w = false

/-- R78, R79: CRC_INIT clears the accumulator; CRC_BYTE takes it one step of the recurrence, here written in numbers
(R76). Nothing else changes. Each has the word the rules give it. -/
def Obligations.CrcCommandsChangeOnlyTheAccumulator : Prop :=
  decode 0x01000000 = .ok .crcInit ∧ (∀ b : Byte, decode (0x02000000 ||| b.setWidth 32) = .ok (.crcByte b))
  ∧ (∀ s : State, exec .crcInit s = .next { s with crcAcc := 0x0000 })
  ∧ ∀ (b : Byte) (s : State), ∃ c : Half,
    exec (.crcByte b) s = .next { s with crcAcc := c }
      ∧ let x1 := (s.crcAcc.toNat >>> 8) ^^^ b.toNat
        let x2 := x1 ^^^ (x1 >>> 4)
        c.toNat = ((s.crcAcc.toNat <<< 8) ^^^ (x2 <<< 12) ^^^ (x2 <<< 5) ^^^ x2) % 2 ^ 16

/-- R91, R93: the first and the last byte of a frame are emitted as they are; TX_FIRST opens the frame and flags one
already open, TX_LAST closes it and flags a byte outside a frame; nothing else changes. Each has the word the rules
give it. -/
def Obligations.TxFirstAndTxLastEmitUnescaped : Prop :=
  ∀ (b : Byte) (s : State),
    decode (0x10000000 ||| b.setWidth 32) = .ok (.txFirst b)
    ∧ decode (0x12000000 ||| b.setWidth 32) = .ok (.txLast b)
    ∧ exec (.txFirst b) s = .next { s with
      txOut := s.txOut ++ [b], txOpen := true, errTxseq := s.errTxseq || s.txOpen }
    ∧ exec (.txLast b) s = .next { s with
      txOut := s.txOut ++ [b], txOpen := false, errTxseq := s.errTxseq || !s.txOpen }

/-- R92, with the table of R89: a reserved byte is emitted as the marker and its sentinel, any other as it is; a
byte outside a frame is flagged; nothing else changes. The command has the word the rule gives it. -/
def Obligations.TxBodyEmitsEscaped : Prop :=
  ∀ (b : Byte) (s : State), decode (0x11000000 ||| b.setWidth 32) = .ok (.txBody b) ∧ ∃ xs : List Byte,
    exec (.txBody b) s = .next { s with
      txOut := s.txOut ++ xs, errTxseq := s.errTxseq || !s.txOpen }
      ∧ (b = 0x06 → xs = [0x1B, 0xF9]) ∧ (b = 0x0D → xs = [0x1B, 0xF2]) ∧ (b = 0x1B → xs = [0x1B, 0xE4])
      ∧ (b = 0x40 → xs = [0x1B, 0xBF]) ∧ (b = 0x80 → xs = [0x1B, 0x7F])
      ∧ (b ∉ [0x06#8, 0x0D#8, 0x1B#8, 0x40#8, 0x80#8] → xs = [b])

/-- R95, R96: the three cases of the stream decoder, and its end, where a pending marker is flagged and dropped and
nothing is emitted; nothing else changes. Each has the word the rules give it. -/
def Obligations.DecoderCommandsFollowTheScan : Prop :=
  (∀ (b : Byte) (s : State),
    decode (0x18000000 ||| b.setWidth 32) = .ok (.dsByte b)
    ∧ (s.dsEsc = true → exec (.dsByte b) s = .next { s with
      dsOut := s.dsOut ++ [b ^^^ 0xFF], dsLast := b ^^^ 0xFF, dsValid := true, dsEsc := false })
    ∧ (s.dsEsc = false → b = 0x1B → exec (.dsByte b) s = .next { s with dsEsc := true, dsValid := false })
    ∧ (s.dsEsc = false → b ≠ 0x1B → exec (.dsByte b) s = .next { s with
        dsOut := s.dsOut ++ [b], dsLast := b, dsValid := true }))
  ∧ decode 0x19000000 = .ok .dsEnd
  ∧ ∀ s : State, exec .dsEnd s = .next { s with
      errDstrunc := s.errDstrunc || s.dsEsc, dsEsc := false, dsValid := false }

/-- R104: the expected id is the operand and nothing else changes; it has the effect of a write to EXP_VARID. The
command has the word the rule gives it. -/
def Obligations.SetExpidSetsOnlyTheExpectedId : Prop :=
  ∀ (v : Half) (s : State),
    decode (0x30000000 ||| v.setWidth 32) = .ok (.setExpid v)
      ∧ exec (.setExpid v) s = .next { s with expVarid := v }
      ∧ exec (.setExpid v) s = .next (s.writeRegister (registerAt 0x01C) (v.setWidth 32))

/-- R105: the stuffed request is emitted, REQ_CRC and the expected id are set, the frame is closed, an open frame
is flagged; nothing else changes, `crc_acc` among the rest. The command has the word the rule gives it. -/
def Obligations.BuildReqEmitsTheStuffedRequest : Prop :=
  ∀ (v : Half) (s : State), decode (0x31000000 ||| v.setWidth 32) = .ok (.buildReq v) ∧ ∃ h l : Byte,
    h ++ l = crc16 [0x3F, 0x10, 0x01, hi v, lo v]
      ∧ exec (.buildReq v) s = .next { s with
          txOut := s.txOut ++ stuff 0x80 [0x3F, 0x10, 0x01, hi v, lo v, h, l] 0x0D
          errTxseq := s.errTxseq || s.txOpen
          reqCrc := h ++ l
          expVarid := v
          txOpen := false }

/-- R109: the reader waits for a start token with both buffers empty and every parse result 0; nothing else
changes, `evt_rxdone` and `err_rxdrop` among the rest. The command has the word the rule gives it. -/
def Obligations.RxArmClearsAndSynchronises : Prop :=
  decode 0x20000000 = .ok .rxArm ∧ ∀ s : State, exec .rxArm s = .next { s with
    rxState := .sync, raw := [], plain := []
    parsed := {
      rxEnd := .none, rxCode := .none
      rxFlags := {
        trunc := false, sent := false, fv := false, crcBad := false, addrErr := false, typeErr := false
        vidErr := false, unitErr := false, tailErr := false }
      fAddr := 0, fType := 0, fVarid := 0, fUnit := 0, fCrcField := 0, fCrcCalc := 0, fPlLen := 0 } }

/-- R110 (with the row of R108): a byte is dropped and flagged outside collection; in SYNC only the start token is
stored; in COLLECT every byte is stored, and the end token or else a full buffer ends the frame. The command has the
word the rule gives it. -/
def Obligations.RxByteFollowsThePhase : Prop :=
  ∀ (b : Byte) (s : State),
    decode (0x21000000 ||| b.setWidth 32) = .ok (.rxByte b)
    ∧ (s.rxState = .idle ∨ s.rxState = .done → exec (.rxByte b) s = .next { s with errRxdrop := true })
    ∧ (s.rxState = .sync → b ≠ 0x40 → exec (.rxByte b) s = .next s)
    ∧ (s.rxState = .sync → b = 0x40 → exec (.rxByte b) s = .next { s with raw := [0x40], rxState := .collect })
    ∧ (s.rxState = .collect → b = 0x0D →
        exec (.rxByte b) s = .next (({ s with raw := s.raw ++ [b] } : State).finish .term))
    ∧ (s.rxState = .collect → b ≠ 0x0D → s.raw.length + 1 = s.params.rxMax →
        exec (.rxByte b) s = .next (({ s with raw := s.raw ++ [b] } : State).finish .full))
    ∧ (s.rxState = .collect → b ≠ 0x0D → s.raw.length + 1 ≠ s.params.rxMax →
        exec (.rxByte b) s = .next { s with raw := s.raw ++ [b] })

/-- R111 (with the row of R108): a timeout ends SYNC and COLLECT and has no effect in IDLE and DONE. The
command has the word the rule gives it. -/
def Obligations.RxTimeoutEndsCollection : Prop :=
  decode 0x22000000 = .ok .rxTimeout ∧ ∀ s : State,
    (s.rxState = .idle ∨ s.rxState = .done → exec .rxTimeout s = .next s)
    ∧ (s.rxState = .sync → exec .rxTimeout s = .next (s.finish .tmoSync))
    ∧ (s.rxState = .collect → exec .rxTimeout s = .next (s.finish .tmoCollect))

/-- R113 to R121, R25: everything that `finish` writes, the code of the first gate that decides (R121) among it. The
buffer is one the invariant allows (at most RX_MAX bytes, R112), so that the payload's length fits its nine bits.
Everything but the four parts it writes stays. -/
def Obligations.FinishWritesEveryParseResult : Prop :=
  ∀ (s : State) (e : RxEnd), s.raw.length ≤ s.params.rxMax →
    let t := s.finish e
    let p := (destuff s.raw).1
    let n := p.length
    let f := t.parsed.rxFlags
    t = { s with plain := p, parsed := t.parsed, rxState := .done, evtRxdone := true }
      ∧ t.parsed.rxEnd = e
      ∧ f.trunc = (destuff s.raw).2
      ∧ (f.sent = true ↔ ∃ k, s.params.sentinel = some k ∧ p = k.toList)
      ∧ (f.fv = true ↔ 9 ≤ n)
      ∧ (f.tailErr = true ↔ p ≠ [] ∧ p.getLast? ≠ some 0x0D)
      ∧ t.parsed.rxCode =
          (if n = 0 then .rxFail
          else if f.sent = true then .noValue
          else if f.fv = false then .short
          else if f.addrErr = true ∨ f.typeErr = true ∨ f.vidErr = true then .structErr
          else if f.unitErr = true then .unitErr
          else .ok)
      ∧ (9 ≤ n → ∃ a ty vh vl u ch cl : Byte,
          p[1]? = some a ∧ p[2]? = some ty ∧ p[3]? = some vh ∧ p[4]? = some vl ∧ p[5]? = some u
            ∧ p[n - 3]? = some ch ∧ p[n - 2]? = some cl
            ∧ t.parsed.fAddr = a ∧ t.parsed.fType = ty ∧ t.parsed.fVarid = vh ++ vl ∧ t.parsed.fUnit = u
            ∧ t.parsed.fCrcField = ch ++ cl
            ∧ t.parsed.fCrcCalc = crc16 ((p.drop 1).take (n - 4))
            ∧ t.parsed.fPlLen.toNat = n - 9
            ∧ (f.crcBad = true ↔ t.parsed.fCrcField ≠ t.parsed.fCrcCalc)
            ∧ (f.addrErr = true ↔ a ≠ 0x3F) ∧ (f.typeErr = true ↔ ty ≠ 0x10)
            ∧ (f.vidErr = true ↔ vh ++ vl ≠ s.expVarid) ∧ (f.unitErr = true ↔ 64 < u.toNat))
      ∧ (n < 9 → t.parsed.fAddr = 0 ∧ t.parsed.fType = 0 ∧ t.parsed.fVarid = 0 ∧ t.parsed.fUnit = 0
            ∧ t.parsed.fCrcField = 0 ∧ t.parsed.fCrcCalc = 0 ∧ t.parsed.fPlLen = 0
            ∧ f.crcBad = false ∧ f.addrErr = false ∧ f.typeErr = false ∧ f.vidErr = false ∧ f.unitErr = false)

/-- R121: the code is that of the first gate that decides the frame. -/
def Obligations.ResultCodeIsTheFirstDecidingGate : Prop :=
  ∀ (s : State) (e : RxEnd),
    let t := s.finish e
    let f := t.parsed.rxFlags
    t.parsed.rxCode =
      (if t.plain = [] then .rxFail
      else if f.sent = true then .noValue
      else if f.fv = false then .short
      else if f.addrErr = true ∨ f.typeErr = true ∨ f.vidErr = true then .structErr
      else if f.unitErr = true then .unitErr
      else .ok)

/-- R116, R119: two raw frames that differ only in the checksum field and in the byte after it, neither being the
sentinel, get the same code. -/
def Obligations.ChecksumAndEndTokenNeverDecideTheCode : Prop :=
  ∀ (p : Params) (v : Half) (e e' : RxEnd) (raw raw' front : List Byte) (c d z c' d' z' : Byte),
    (destuff raw).1 = front ++ [c, d, z] → (destuff raw').1 = front ++ [c', d', z'] → 6 ≤ front.length →
    (parseFrame p v e raw).rxCode = (parseFrame p v e' raw').rxCode

/-! ### The checksum -/

/-- R81: the recurrence is linear over GF(2), and the byte may be folded into the accumulator. -/
def Obligations.CrcStepIsLinear : Prop :=
  (∀ (a1 a2 : Half) (b1 b2 : Byte), crcStep (a1 ^^^ a2) (b1 ^^^ b2) = crcStep a1 b1 ^^^ crcStep a2 b2)
    ∧ ∀ (a : Half) (b : Byte), crcStep a b = crcStep (a ^^^ (b.setWidth 16 <<< 8)) 0

/-- R82: the checksum does not see leading zero bytes. -/
def Obligations.ChecksumIgnoresLeadingZeros : Prop :=
  crcStep 0x0000 0x00 = 0x0000
    ∧ ∀ (k : Nat) (xs : List Byte), crc16 (List.replicate k 0x00 ++ xs) = crc16 xs

/-- R83: a list followed by its own checksum, high byte first, has checksum 0. -/
def Obligations.ChecksumResidueIsZero : Prop :=
  ∀ xs : List Byte, crc16 (xs ++ [hi (crc16 xs), lo (crc16 xs)]) = 0x0000

/-- R84: the byte-wise recurrence is the bit-serial update with polynomial 0x1021, for every accumulator and every
byte; and the check value over the nine digits. -/
def Obligations.CrcStepEqualsTheBitSerialUpdate : Prop :=
  (∀ (acc : Half) (b : Byte), crcStep acc b = crcStepSerial acc b)
    ∧ crc16 [0x31, 0x32, 0x33, 0x34, 0x35, 0x36, 0x37, 0x38, 0x39] = 0x31C3

/-- R74, R77 to R79: the CRC pseudo-instruction leaves the checksum of its bytes in the accumulator and changes
nothing else. -/
def Obligations.CrcPseudoComputesTheChecksum : Prop :=
  ∀ (bytes : List Byte) (s : State), ∃ is, expand (.crc bytes) = some is
    ∧ execAll is s = .next { s with crcAcc := bytes.foldl crcStep 0x0000 }

/-! ### Stuffing -/

/-- R98, with both halves of it: the round trip holds exactly when neither end byte is the escape marker. -/
def Obligations.DestuffUndoesStuffUnlessAnEndIsTheMarker : Prop :=
  ∀ (first : Byte) (interior : List Byte) (last : Byte),
    destuff (stuff first interior last) = (first :: interior ++ [last], false) ↔ first ≠ 0x1B ∧ last ≠ 0x1B

/-- R99: no boundary token stands inside a wire frame, and the marker only before a sentinel byte. -/
def Obligations.WireFrameKeepsTokensAtItsEnds : Prop :=
  (∀ interior : List Byte,
    let wire : List Byte := interior.flatMap enc
    (∀ x ∈ wire, x ∉ [0x06#8, 0x0D#8, 0x40#8, 0x80#8])
      ∧ ∀ i, wire[i]? = some (0x1B : Byte) →
          ∃ y : Byte, wire[i + 1]? = some y ∧ y ∈ [0xF9#8, 0xF2#8, 0xE4#8, 0xBF#8, 0x7F#8])
    ∧ ∀ (first : Byte) (interior : List Byte) (i : Nat) (x : Byte), first = 0x80 ∨ first = 0x40 →
        (stuff first interior 0x0D)[i]? = some x →
        (x = 0x40 ∨ x = 0x80 → i = 0) ∧ (x = 0x0D → i + 1 = (stuff first interior 0x0D).length)

/-- R74, R90 to R93: the STUFF pseudo-instruction emits the wire form of its frame and leaves no frame open; only a
frame that was open before is flagged. -/
def Obligations.StuffPseudoEmitsTheWireForm : Prop :=
  ∀ (first : Byte) (interior : List Byte) (last : Byte) (s : State),
    ∃ is, expand (.stuff (first :: interior ++ [last])) = some is
      ∧ execAll is s = .next { s with
          txOut := s.txOut ++ first :: interior.flatMap enc ++ [last]
          txOpen := false
          errTxseq := s.errTxseq || s.txOpen }

/-- R97: the stream decoder, fed a list from `ds_esc = 0` and ended, emits exactly the list de-stuffed, and flags
exactly a dropped marker; what it emits is no longer than what it was fed. -/
def Obligations.DestuffPseudoComputesDestuff : Prop :=
  ∀ (bytes : List Byte) (s : State), s.dsEsc = false →
    ∃ is, expand (.destuff bytes) = some is
      ∧ execAll is s = .next { s with
          dsOut := s.dsOut ++ (destuff bytes).1
          dsLast := ((destuff bytes).1.getLast?).getD s.dsLast
          dsValid := false
          errDstrunc := s.errDstrunc || (destuff bytes).2 }
      ∧ (destuff bytes).1.length ≤ bytes.length

/-- R100: the encoder's commands leave the decoder alone, the decoder's leave the encoder alone, and the frame
reader's leave both; and, by the pseudocode of R91 to R93, R95, R96 and R105, the encoder's and the decoder's commands
leave the frame reader alone. The expected id, which BUILD_REQ writes and the parse reads, is no part of the reader's
state here. -/
def Obligations.EncoderAndDecoderShareNoState : Prop :=
  ∀ (i : Instr) (s t : State), exec i s = .next t →
    (((∃ b, i = .txFirst b) ∨ (∃ b, i = .txBody b) ∨ (∃ b, i = .txLast b) ∨ (∃ v, i = .buildReq v)
        ∨ i = .rxArm ∨ (∃ b, i = .rxByte b) ∨ i = .rxTimeout) →
      t.dsEsc = s.dsEsc ∧ t.dsLast = s.dsLast ∧ t.dsValid = s.dsValid ∧ t.dsOut = s.dsOut
        ∧ t.errDstrunc = s.errDstrunc)
    ∧ (((∃ b, i = .dsByte b) ∨ i = .dsEnd ∨ i = .rxArm ∨ (∃ b, i = .rxByte b) ∨ i = .rxTimeout) →
      t.txOpen = s.txOpen ∧ t.txOut = s.txOut ∧ t.errTxseq = s.errTxseq)
    ∧ (((∃ b, i = .txFirst b) ∨ (∃ b, i = .txBody b) ∨ (∃ b, i = .txLast b) ∨ (∃ v, i = .buildReq v)
        ∨ (∃ b, i = .dsByte b) ∨ i = .dsEnd) →
      t.rxState = s.rxState ∧ t.raw = s.raw ∧ t.plain = s.plain ∧ t.parsed = s.parsed
        ∧ t.errRxdrop = s.errRxdrop ∧ t.evtRxdone = s.evtRxdone)

/-! ### The request -/

/-- R101, R102: the nine bytes of a request, whose checksum covers offsets 1 to 5; and by R83 its offsets 1 to 7
have checksum 0. -/
def Obligations.RequestFrameLayout : Prop :=
  ∀ v : Half, ∃ vh vl ch cl : Byte,
    reqFrame v = [0x80, 0x3F, 0x10, 0x01, vh, vl, ch, cl, 0x0D] ∧ vh ++ vl = v
      ∧ ch ++ cl = crc16 (((reqFrame v).drop 1).take 5)
      ∧ crc16 (((reqFrame v).drop 1).take 7) = 0x0000

/-- R103: the stuffed request has nine bytes and one more for each reserved byte at offsets 4 to 7; the rule's own
example. -/
def Obligations.StuffedRequestLength : Prop :=
  (∀ v : Half,
    (reqWire v).length =
        9 + (((reqFrame v).drop 4).take 4).countP (fun b => b ∈ [0x06#8, 0x0D#8, 0x1B#8, 0x40#8, 0x80#8])
      ∧ 9 ≤ (reqWire v).length ∧ (reqWire v).length ≤ 13)
    ∧ crc16 (((reqFrame 0x0784).drop 1).take 5) = 0x0D1B
    ∧ reqWire 0x0784 = [0x80, 0x3F, 0x10, 0x01, 0x07, 0x84, 0x1B, 0xF2, 0x1B, 0xE4, 0x0D]

/-- R106: the bytes BUILD_REQ emits, fed to the decoder, give the plain request back, for every id; an echo of
them that the frame reader gets in SYNC is discarded. -/
def Obligations.RequestSurvivesItsRoundTrip : Prop :=
  ∀ (v : Half) (s : State), s.dsEsc = false →
    ∃ t sent is u, exec (.buildReq v) s = .next t ∧ t.txOut = s.txOut ++ sent
      ∧ expand (.destuff sent) = some is ∧ execAll is t = .next u
      ∧ u.dsOut = s.dsOut ++ reqFrame v ∧ u.errDstrunc = s.errDstrunc
      ∧ ∀ r : State, r.rxState = .sync → execAll (sent.map .rxByte) r = .next r

/-! ### The frame reader -/

/-- R107 with R109, R110, R113 and R121: every well-formed response, stuffed and fed byte by byte after RX_ARM, from
any state and with any parameters whose buffer holds it, is received and parsed: the code is OK, no check fails, and
the fields are the response's. -/
def Obligations.ReaderAcceptsEveryWellFormedResponse : Prop :=
  ∀ (s : State) (unit : Byte) (payload : List Byte), unit.toNat ≤ 64 →
    let inner := [0x3F, 0x10, hi s.expVarid, lo s.expVarid, unit] ++ payload
    let c := crc16 inner
    let interior := inner ++ [hi c, lo c]
    let wire := stuff 0x40 interior 0x0D
    wire.length ≤ s.params.rxMax →
    ∃ is, expand (.recv wire) = some is ∧ execAll is s = .next { s with
      rxState := .done
      raw := wire
      plain := 0x40 :: interior ++ [0x0D]
      parsed := {
        rxEnd := .term, rxCode := .ok, rxFlags := { RxFlags.clear with fv := true }
        fAddr := 0x3F, fType := 0x10, fVarid := s.expVarid, fUnit := unit, fCrcField := c, fCrcCalc := c
        fPlLen := BitVec.ofNat 9 payload.length }
      evtRxdone := true }

/-- R123, for a marker that is not itself escaped (`front` de-stuffs whole): before the end token it makes one byte
F2 and TAILERR, not TRUNC; at the end of a frame that a timeout ends it makes TRUNC and no byte. -/
def Obligations.MarkerAtTheEndOfARawFrame : Prop :=
  ∀ (s : State) (front : List Byte), s.rxState = .collect → (destuff front).2 = false →
    s.raw = front ++ [0x1B] →
    (∃ t, exec (.rxByte 0x0D) s = .next t ∧ t.parsed.rxEnd = .term ∧ t.plain = (destuff front).1 ++ [0xF2]
      ∧ t.parsed.rxFlags.tailErr = true ∧ t.parsed.rxFlags.trunc = false)
    ∧ ∃ t, exec .rxTimeout s = .next t ∧ t.parsed.rxEnd = .tmoCollect ∧ t.plain = (destuff front).1
      ∧ t.parsed.rxFlags.trunc = true

/-- R26, R122: a step changes the parse results only when it ends a collection, when it is RX_ARM, or when it leaves
reset; so in DONE they and both buffers stay until then. That a reset acts at its release alone,
and not at its assertion, is the model's choice (log entry 5). -/
def Obligations.ParseResultsPersist : Prop :=
  ∀ s t : State, step s = .next t → ¬ s.FacesCommand .rxArm → ¬ s.LeavesReset →
    (t.parsed ≠ s.parsed → (s.rxState = .sync ∨ s.rxState = .collect) ∧ t.rxState = .done)
    ∧ (s.rxState = .done →
        t.rxState = .done ∧ t.raw = s.raw ∧ t.plain = s.plain ∧ t.parsed = s.parsed)

/-! ### Invariants and whole-machine rules -/

/-- R146: the state after reset meets the invariant, whatever the parameters. -/
def Obligations.ResetMeetsTheInvariant : Prop :=
  (∀ p : Params, (State.resetWith p).Inv) ∧ State.reset.Inv

/-- R17, R24 to R26, R112, R113: every step, from every state that meets the invariant, keeps it. That the
assertion of reset keeps the state, and so the invariant, is the model's choice (log entry 5). -/
def Obligations.EveryStepKeepsTheInvariant : Prop :=
  ∀ s t : State, s.Inv → step s = .next t → t.Inv

/-- R14, R112, R114, R121: what the invariant says of the lengths and of the results. -/
def Obligations.InvariantBoundsBuffersAndResults : Prop :=
  ∀ s : State, s.Inv →
    s.raw.length ≤ s.params.rxMax ∧ s.plain.length ≤ s.raw.length ∧ 9 ≤ s.params.rxMax ∧ s.params.rxMax ≤ 256
      ∧ (s.parsed.rxCode = .rxFail ↔ s.parsed.rxEnd = .tmoSync)
      ∧ (s.parsed.rxEnd = .none ↔ s.rxState ≠ .done)
      ∧ ¬ (s.parsed.rxFlags.sent = true ∧ s.parsed.rxFlags.fv = true)

/-- R130: no step ends in a fault, and a step has a next state unless the host accesses the block while reset is
asserted, which R146 says is not accepted (and the model refuses by name, log entry 6). -/
def Obligations.StepHasANextStateUnlessAccessedInReset : Prop :=
  ∀ s : State,
    (s.SafeStep → ∃ t, step s = .next t)
    ∧ ∀ (a : Access) (rest : List HostEvent), s.inReset = true → s.pending = .access a :: rest →
        step s = .refused (.accessDuringReset a)

/-- R130, R12: every command, on every operand and in every state, completes; and it touches neither CTRL nor what is
not the block's. -/
def Obligations.EveryCommandCompletes : Prop :=
  ∀ (i : Instr) (s : State), ∃ t, exec i s = .next t
    ∧ t.ctrlRxie = s.ctrlRxie ∧ t.ctrlErrie = s.ctrlErrie ∧ t.errIllegal = s.errIllegal
    ∧ t.params = s.params ∧ t.inReset = s.inReset ∧ t.pending = s.pending ∧ t.responses = s.responses

/-- R15: only CRC_INIT, CRC_BYTE and reset change the accumulator. That a reset acts at its release alone, and not at
its assertion, is the model's choice (log entry 5). -/
def Obligations.OnlyCrcCommandsChangeTheAccumulator : Prop :=
  ∀ s t : State, step s = .next t → t.crcAcc ≠ s.crcAcc →
    s.FacesCommand .crcInit ∨ (∃ b, s.FacesCommand (.crcByte b)) ∨ s.LeavesReset

/-- R15, R105, R116: no command but CRC_BYTE reads the accumulator: with another value in it, the outcome is the same
but for the accumulator itself. -/
def Obligations.OtherCommandsDoNotReadTheAccumulator : Prop :=
  ∀ (i : Instr) (s t : State) (a : Half), (∀ b, i ≠ .crcByte b) → exec i s = .next t →
    exec i { s with crcAcc := a } = .next { t with crcAcc := if i = .crcInit then 0 else a }

/-- R16: `tx_open` rises only by TX_FIRST and falls only by TX_LAST, BUILD_REQ and reset, and it changes no byte that
a command emits, on either port. That a reset acts at its release alone, and not at its assertion, is the model's choice
(log entry 5). -/
def Obligations.TxOpenTracksTheFrame : Prop :=
  (∀ s t : State, step s = .next t →
    (s.txOpen = false → t.txOpen = true → ∃ b, s.FacesCommand (.txFirst b))
    ∧ (s.txOpen = true → t.txOpen = false →
        (∃ b, s.FacesCommand (.txLast b)) ∨ (∃ v, s.FacesCommand (.buildReq v)) ∨ s.LeavesReset))
  ∧ ∀ (i : Instr) (s t : State) (o : Bool), exec i s = .next t →
      ∃ u, exec i { s with txOpen := o } = .next u ∧ u.txOut = t.txOut ∧ u.dsOut = t.dsOut

/-- R22: only BUILD_REQ, SET_EXPID, a write to EXP_VARID and reset change the expected id. That a reset acts at its
release alone, and not at its assertion, is the model's choice (log entry 5). -/
def Obligations.ThreeWritersOfTheExpectedId : Prop :=
  ∀ s t : State, step s = .next t → t.expVarid ≠ s.expVarid →
    (∃ v, s.FacesCommand (.buildReq v)) ∨ (∃ v, s.FacesCommand (.setExpid v))
      ∨ (∃ v rest, s.Faces (.write 0x01C 4 v) rest ∧ t.expVarid = v.setWidth 16) ∨ s.LeavesReset

/-- R24: only RX_ARM, which empties it, RX_BYTE in SYNC or COLLECT, which adds its byte, and reset change `raw`.
That a reset acts at its release alone, and not at its assertion, is the model's choice (log entry 5). -/
def Obligations.OnlyReaderCommandsChangeRaw : Prop :=
  ∀ s t : State, step s = .next t → t.raw ≠ s.raw →
    (s.FacesCommand .rxArm ∧ t.raw = [])
      ∨ (∃ b, s.FacesCommand (.rxByte b) ∧ (s.rxState = .sync ∧ t.raw = [b] ∨ s.rxState = .collect ∧ t.raw = s.raw ++ [b]))
      ∨ (s.LeavesReset ∧ t.raw = [])

/-- R23, R147: what the ports delivered, and the results of the accesses, are never taken back, by a reset either. -/
def Obligations.OutputPortsOnlyGrow : Prop :=
  ∀ s t : State, step s = .next t →
    s.txOut <+: t.txOut ∧ s.dsOut <+: t.dsOut ∧ s.responses <+: t.responses

/-- R50: no step changes RX_MAX or SENTINEL. -/
def Obligations.ParametersNeverChange : Prop :=
  ∀ s t : State, step s = .next t → t.params = s.params

/-- R135, R29: a sticky bit that is 1 stays 1 unless the step writes 1 to it in STATUS or leaves reset. That a
reset acts at its release alone, and not at its assertion, is the model's choice (log entry 5). -/
def Obligations.StickyBitsFallOnlyByW1cOrReset : Prop :=
  ∀ s t : State, step s = .next t → ¬ s.LeavesReset →
    ∀ k, k = 8 ∨ k = 9 ∨ k = 10 ∨ k = 11 ∨ k = 16 →
      (s.readRegister .status).getLsbD k = true → (t.readRegister .status).getLsbD k = false →
      ∃ v rest, s.Faces (.write 0x004 4 v) rest ∧ v.getLsbD k = true

/-! ### The register space -/

/-- R55, R132: an access of a width other than four bytes, or at an address that is no multiple of four, changes
nothing and ends with the bus error. -/
def Obligations.BadAccessIsABusErrorWithNoEffect : Prop :=
  ∀ (s : State) (a : Access) (rest : List HostEvent) (addr : RegAddr) (n : Nat), s.Faces a rest →
    (a = .read addr n ∨ ∃ v, a = .write addr n v) → n ≠ 4 ∨ addr.toNat % 4 ≠ 0 →
    step s = .next { s with pending := rest, responses := s.responses ++ [.busError addr] }

/-- R54, R126: an aligned 32-bit read answers the word and changes nothing; R145: with nothing to do, the block does
nothing. -/
def Obligations.ReadsChangeNothing : Prop :=
  (∀ (s : State) (rest : List HostEvent) (addr : RegAddr), s.Faces (.read addr 4) rest → addr.toNat % 4 = 0 →
    step s = .next { s with pending := rest, responses := s.responses ++ [.value (s.readWord addr)] })
  ∧ ∀ s : State, s.pending = [] → step s = .next s

/-- R52, R126: each register is at its own offset, an aligned one, and is read there. -/
def Obligations.EveryRegisterIsReadAtItsOffset : Prop :=
  ∀ (s : State) (r : Register),
    s.readWord (offsetOf r) = s.readRegister r ∧ (offsetOf r).toNat % 4 = 0
      ∧ ∀ q : Register, offsetOf q = offsetOf r → q = r

/-- R126 with R27, R28, R31 to R35, R37 to R45: by its address, the value of every register but STATUS, CTRL and
RX_RESULT. Those three and the windows have statements of their own: StatusBits, IrqIsTheLevelOfTheEnabledBits (every
bit of CTRL), RxResultBits, WindowsShowTheBuffers. -/
def Obligations.RegisterValues : Prop :=
  ∀ s : State,
    s.readWord 0x000 = 0 ∧ s.readWord 0x00C = 0x4B430001
      ∧ (s.readWord 0x010).toNat = s.params.rxMax
      ∧ (s.readWord 0x014).toNat = s.crcAcc.toNat ∧ (s.readWord 0x018).toNat = s.reqCrc.toNat
      ∧ (s.readWord 0x01C).toNat = s.expVarid.toNat
      ∧ (s.readWord 0x020).toNat = s.dsLast.toNat + (if s.dsValid then 256 else 0)
      ∧ (s.raw.length < 512 → (s.readWord 0x028).toNat = s.raw.length)
      ∧ (s.plain.length < 512 → (s.readWord 0x02C).toNat = s.plain.length)
      ∧ (s.readWord 0x030).toNat = s.parsed.fAddr.toNat ∧ (s.readWord 0x034).toNat = s.parsed.fType.toNat
      ∧ (s.readWord 0x038).toNat = s.parsed.fVarid.toNat ∧ (s.readWord 0x03C).toNat = s.parsed.fUnit.toNat
      ∧ (s.readWord 0x040).toNat = s.parsed.fCrcField.toNat ∧ (s.readWord 0x044).toNat = s.parsed.fCrcCalc.toNat
      ∧ (s.readWord 0x048).toNat = s.parsed.fPlLen.toNat

/-- R46, R47, R126: word i of a window is the byte at i, and 0 beyond the current length. -/
def Obligations.WindowsShowTheBuffers : Prop :=
  ∀ (s : State) (i : Nat), i ≤ 255 →
    (s.readWord (BitVec.ofNat 12 (0x400 + 4 * i))).toNat = ((s.raw[i]?).map BitVec.toNat).getD 0
      ∧ (s.readWord (BitVec.ofNat 12 (0x800 + 4 * i))).toNat = ((s.plain[i]?).map BitVec.toNat).getD 0

/-- R29, R126: every bit of STATUS. -/
def Obligations.StatusBits : Prop :=
  ∀ s : State,
    let w := s.readWord 0x004
    (w.extractLsb' 0 2 = match s.rxState with | .idle => 0#2 | .sync => 1#2 | .collect => 2#2 | .done => 3#2)
      ∧ w.getLsbD 2 = s.txOpen ∧ w.getLsbD 3 = s.dsEsc ∧ w.extractLsb' 4 4 = 0#4
      ∧ w.getLsbD 8 = s.errIllegal ∧ w.getLsbD 9 = s.errTxseq ∧ w.getLsbD 10 = s.errRxdrop
      ∧ w.getLsbD 11 = s.errDstrunc ∧ w.extractLsb' 12 4 = 0#4 ∧ w.getLsbD 16 = s.evtRxdone
      ∧ w.extractLsb' 17 15 = 0#15

/-- R36, R126: every bit of RX_RESULT, and the codes that are never produced (R134). -/
def Obligations.RxResultBits : Prop :=
  ∀ s : State,
    let w := s.readWord 0x024
    let f := s.parsed.rxFlags
    (w.extractLsb' 0 4 = match s.parsed.rxCode with
      | .none => 0#4 | .ok => 1#4 | .noValue => 2#4 | .rxFail => 3#4 | .short => 4#4 | .structErr => 5#4
      | .unitErr => 6#4)
      ∧ (w.extractLsb' 4 3 = match s.parsed.rxEnd with
          | .none => 0#3 | .term => 1#3 | .full => 2#3 | .tmoSync => 3#3 | .tmoCollect => 4#3)
      ∧ w.getLsbD 7 = false ∧ w.getLsbD 8 = f.trunc ∧ w.getLsbD 9 = f.sent ∧ w.getLsbD 10 = f.fv
      ∧ w.getLsbD 11 = f.crcBad ∧ w.getLsbD 12 = f.addrErr ∧ w.getLsbD 13 = f.typeErr ∧ w.getLsbD 14 = f.vidErr
      ∧ w.getLsbD 15 = f.unitErr ∧ w.getLsbD 16 = f.tailErr ∧ w.extractLsb' 17 15 = 0#15
      ∧ (w.extractLsb' 0 4).toNat ≤ 6 ∧ (w.extractLsb' 4 3).toNat ≤ 4

/-- R53: a read of an unmapped word, or of CMD, answers 0; a write to an unmapped word, or to a register other than CMD,
STATUS, CTRL and EXP_VARID, is ignored; none of these is an error. -/
def Obligations.UnmappedAndReadOnlyWordsIgnoreWrites : Prop :=
  (∀ (s : State) (rest : List HostEvent) (addr : RegAddr), s.Faces (.read addr 4) rest → addr.toNat % 4 = 0 →
    (addr = 0x000 ∨ 0x048 < addr.toNat ∧ addr.toNat < 0x400 ∨ 0xC00 ≤ addr.toNat) →
    step s = .next { s with pending := rest, responses := s.responses ++ [.value 0x00000000] })
  ∧ ∀ (s : State) (rest : List HostEvent) (addr : RegAddr) (v : Word), s.Faces (.write addr 4 v) rest →
      addr.toNat % 4 = 0 → addr ∉ [0x000#12, 0x004#12, 0x008#12, 0x01C#12] →
      step s = .next { s with pending := rest, responses := s.responses ++ [.completed] }

/-- R127, R29, R30, R34: a write to STATUS clears the sticky bits written as 1, a write to CTRL sets the two enables,
a write to EXP_VARID the expected id; nothing else changes. -/
def Obligations.RegisterWrites : Prop :=
  ∀ (s : State) (rest : List HostEvent) (v : Word),
    (s.Faces (.write 0x004 4 v) rest → step s = .next { s with
      pending := rest, responses := s.responses ++ [.completed]
      errIllegal := s.errIllegal && !v.getLsbD 8
      errTxseq := s.errTxseq && !v.getLsbD 9
      errRxdrop := s.errRxdrop && !v.getLsbD 10
      errDstrunc := s.errDstrunc && !v.getLsbD 11
      evtRxdone := s.evtRxdone && !v.getLsbD 16 })
    ∧ (s.Faces (.write 0x008 4 v) rest → step s = .next { s with
      pending := rest, responses := s.responses ++ [.completed]
      ctrlRxie := v.getLsbD 0, ctrlErrie := v.getLsbD 1 })
    ∧ (s.Faces (.write 0x01C 4 v) rest → step s = .next { s with
      pending := rest, responses := s.responses ++ [.completed]
      expVarid := v.extractLsb' 0 16 })

/-- R48, R30, R135: irq is the level of the enabled sticky bits, as STATUS and CTRL show them, and the two enables are
the only bits of CTRL; so acknowledging every pending bit lets irq fall (R138), and clearing both enables masks it
without clearing a bit. -/
def Obligations.IrqIsTheLevelOfTheEnabledBits : Prop :=
  ∀ s : State,
    let st := s.readWord 0x004
    let ctrl := s.readWord 0x008
    (s.irq = true ↔ (ctrl.getLsbD 0 = true ∧ st.getLsbD 16 = true)
      ∨ (ctrl.getLsbD 1 = true
          ∧ (st.getLsbD 8 = true ∨ st.getLsbD 9 = true ∨ st.getLsbD 10 = true ∨ st.getLsbD 11 = true)))
      ∧ ctrl.getLsbD 0 = s.ctrlRxie ∧ ctrl.getLsbD 1 = s.ctrlErrie ∧ ctrl.extractLsb' 2 30 = 0#30
      ∧ (∀ rest, s.Faces (.write 0x004 4 st) rest → ∃ t, step s = .next t ∧ t.irq = false)
      ∧ ∀ rest, s.Faces (.write 0x008 4 0) rest → ∃ t, step s = .next t ∧ t.irq = false ∧ t.readWord 0x004 = st

/-! ### Reset -/

/-- R146, R148: after reset every word of the register space reads 0 but ID and PARAM, irq is low, the reader is in
IDLE, no frame is open and no marker pending. -/
def Obligations.ResetReadsZeroExceptIdAndParam : Prop :=
  ∀ (p : Params) (addr : RegAddr),
    (State.resetWith p).readWord addr =
        (if addr = 0x00C then 0x4B430001 else if addr = 0x010 then BitVec.ofNat 32 p.rxMax else 0)
      ∧ (State.resetWith p).irq = false ∧ (State.resetWith p).rxState = .idle
      ∧ (State.resetWith p).txOpen = false ∧ (State.resetWith p).dsEsc = false
      ∧ (State.resetWith p).txOut = [] ∧ (State.resetWith p).dsOut = []

/-- R146, R147: releasing reset gives every component its reset value but the output ports, which keep what they
delivered. That the model keeps its record of the accesses too is its own choice (log entry 7). -/
def Obligations.ReleasingResetKeepsOnlyTheOutputPorts : Prop :=
  ∀ (s : State) (rest : List HostEvent), s.inReset = true → s.pending = .resetLevel false :: rest →
    step s = .next { State.resetWith s.params with
      txOut := s.txOut, dsOut := s.dsOut, pending := rest, responses := s.responses }
end

