-- ==== Sys2Proof/Laws/Encoding.lean ====
section
/-! SUPPORT. The fields of a command word built from an opcode and an operand (30_encoding.md R64, R73), and the two
bytes of a 16-bit value (00_scope.md R8). -/

namespace Sys2Proof

open Sys2Proof.Machine

theorem getLsbD_opField (w : Word) (i : Nat) : (opField w).getLsbD i = (decide (i < 8) && w.getLsbD (24 + i)) := by
  simp [opField, BitVec.getLsbD_extractLsb']

theorem getLsbD_rsvField (w : Word) (i : Nat) : (rsvField w).getLsbD i = (decide (i < 8) && w.getLsbD (16 + i)) := by
  simp [rsvField, BitVec.getLsbD_extractLsb']

theorem getLsbD_immField (w : Word) (i : Nat) : (immField w).getLsbD i = (decide (i < 16) && w.getLsbD i) := by
  simp [immField, BitVec.getLsbD_extractLsb']

theorem getLsbD_hi (v : Half) (i : Nat) : (hi v).getLsbD i = (decide (i < 8) && v.getLsbD (8 + i)) := by
  simp [hi, BitVec.getLsbD_extractLsb']

theorem getLsbD_lo (v : Half) (i : Nat) : (lo v).getLsbD i = (decide (i < 8) && v.getLsbD i) := by
  simp [lo, BitVec.getLsbD_extractLsb']

theorem getLsbD_be16 (h l : Byte) (i : Nat) :
    (be16 h l).getLsbD i = if i < 8 then l.getLsbD i else h.getLsbD (i - 8) := by
  have hh : 16 ≤ i → h.getLsbD (i - 8) = false := fun _ => BitVec.getLsbD_of_ge _ _ (by omega)
  have hl : 8 ≤ i → l.getLsbD i = false := fun _ => BitVec.getLsbD_of_ge _ _ (by omega)
  simp only [be16, BitVec.getLsbD_or, BitVec.getLsbD_shiftLeft, BitVec.getLsbD_setWidth]
  split
  · simp_all; omega
  · by_cases h16 : i < 16
    · simp_all [show i - 8 < 16 by omega]
    · simp_all

theorem getLsbD_commandWord (op : Byte) (x : Half) (i : Nat) :
    (commandWord op x).getLsbD i = if i < 24 then x.getLsbD i else op.getLsbD (i - 24) := by
  have ho : 32 ≤ i → op.getLsbD (i - 24) = false := fun _ => BitVec.getLsbD_of_ge _ _ (by omega)
  have hx : 16 ≤ i → x.getLsbD i = false := fun _ => BitVec.getLsbD_of_ge _ _ (by omega)
  simp only [commandWord, BitVec.getLsbD_or, BitVec.getLsbD_shiftLeft, BitVec.getLsbD_setWidth]
  split
  · simp_all; omega
  · by_cases h32 : i < 32
    · simp_all [show i - 24 < 32 by omega, hx (by omega)]
    · simp_all [hx (by omega)]

@[simp] theorem opField_commandWord (op : Byte) (x : Half) : opField (commandWord op x) = op :=
  BitVec.eq_of_getLsbD_eq fun i h => by
    rw [getLsbD_opField, getLsbD_commandWord]; simp [h]

@[simp] theorem rsvField_commandWord (op : Byte) (x : Half) : rsvField (commandWord op x) = 0 :=
  BitVec.eq_of_getLsbD_eq fun i h => by
    rw [getLsbD_rsvField, getLsbD_commandWord]; simp [show 16 + i < 24 by omega]

@[simp] theorem immField_commandWord (op : Byte) (x : Half) : immField (commandWord op x) = x :=
  BitVec.eq_of_getLsbD_eq fun i h => by
    rw [getLsbD_immField, getLsbD_commandWord]; simp [h, show i < 24 by omega]

@[simp] theorem hi_setWidth (b : Byte) : hi (b.setWidth 16) = 0 :=
  BitVec.eq_of_getLsbD_eq fun i h => by
    rw [getLsbD_hi, BitVec.getLsbD_setWidth]; simp

@[simp] theorem lo_setWidth (b : Byte) : lo (b.setWidth 16) = b :=
  BitVec.eq_of_getLsbD_eq fun i h => by
    rw [getLsbD_lo, BitVec.getLsbD_setWidth]; simp [h, show i < 16 by omega]

/-- A word is its two fields, once the reserved byte is zero. -/
theorem commandWord_fields (w : Word) (h : rsvField w = 0) : commandWord (opField w) (immField w) = w :=
  BitVec.eq_of_getLsbD_eq fun i hi => by
    have hr := getLsbD_rsvField w (i - 16)
    rw [getLsbD_commandWord, getLsbD_opField, getLsbD_immField]
    by_cases h16 : i < 16
    · simp [h16, show i < 24 by omega]
    · by_cases h24 : i < 24
      · simp_all [show i - 16 < 8 by omega, show 16 + (i - 16) = i by omega]
      · simp [h24, show i - 24 < 8 by omega, show 24 + (i - 24) = i by omega]

/-- An operand whose high byte is zero is its low byte, zero-extended (R71). -/
theorem setWidth_lo (x : Half) (h : hi x = 0) : (lo x).setWidth 16 = x :=
  BitVec.eq_of_getLsbD_eq fun i hlt => by
    have hr := getLsbD_hi x (i - 8)
    rw [BitVec.getLsbD_setWidth, getLsbD_lo]
    by_cases h8 : i < 8
    · simp [h8, hlt]
    · simp_all [show i - 8 < 8 by omega, show 8 + (i - 8) = i by omega]

/-- `hi` and `lo` are the two bytes of a 16-bit value, and `be16` puts them together (R8, R57). -/
@[simp] theorem be16_hi_lo (v : Half) : be16 (hi v) (lo v) = v :=
  BitVec.eq_of_getLsbD_eq fun i h => by
    rw [getLsbD_be16, getLsbD_hi, getLsbD_lo]
    by_cases h8 : i < 8
    · simp [h8]
    · simp [h8, show i - 8 < 8 by omega, show 8 + (i - 8) = i by omega]

/-- `be16` is the concatenation of its bytes, high byte first (R57). -/
theorem be16_eq_append (h l : Byte) : be16 h l = h ++ l :=
  BitVec.eq_of_getLsbD_eq fun i _ => by
    rw [getLsbD_be16, BitVec.getLsbD_append]

@[simp] theorem hi_be16 (h l : Byte) : hi (be16 h l) = h :=
  BitVec.eq_of_getLsbD_eq fun i h8 => by
    rw [getLsbD_hi, getLsbD_be16]; simp [h8]

@[simp] theorem lo_be16 (h l : Byte) : lo (be16 h l) = l :=
  BitVec.eq_of_getLsbD_eq fun i h8 => by
    rw [getLsbD_lo, getLsbD_be16]; simp [h8]

end Sys2Proof
end

