-- ==== Sys2Proof/Laws/Flags.lean ====
section
/-! SUPPORT. What each flag of a parsed frame says (43_frame_parser.md R114 to R119), and how the parse results of a
frame are put together (R113). -/

namespace Sys2Proof.Machine

theorem fvFlag_iff (p : List Byte) : fvFlag p = true ↔ 9 ≤ p.length := by
  unfold fvFlag; rw [decide_eq_true_iff]; rfl

theorem fvFlag_eq_false_iff (p : List Byte) : fvFlag p = false ↔ p.length < 9 := by
  rw [← Bool.not_eq_true, fvFlag_iff]; omega

theorem unitErrFlag_iff (u : Byte) : unitErrFlag u = true ↔ 64 < u.toNat := by
  unfold unitErrFlag; rw [decide_eq_true_iff]; exact Iff.rfl

theorem sentFlag_iff (k : Option (Vector Byte 6)) (p : List Byte) :
    sentFlag k p = true ↔ ∃ bytes, k = some bytes ∧ p = bytes.toList := by
  unfold sentFlag; cases k <;> simp

/-- A frame that equals the sentinel has six bytes. -/
theorem length_of_sentFlag {k : Option (Vector Byte 6)} {p : List Byte} (h : sentFlag k p = true) : p.length = 6 := by
  obtain ⟨bytes, -, rfl⟩ := (sentFlag_iff k p).1 h
  simp

theorem tailErrFlag_append (xs : List Byte) (z : Byte) : tailErrFlag (xs ++ [z]) = (z != frameEnd) := by
  simp [tailErrFlag, byteAt]

@[simp] theorem tailErrFlag_nil : tailErrFlag [] = false := rfl

/-- The parts of the parse results that do not depend on the length gate. -/
theorem parseFrame_base (params : Params) (v : Half) (e : RxEnd) (raw : List Byte) :
    (parseFrame params v e raw).rxEnd = e
      ∧ (parseFrame params v e raw).rxFlags.trunc = (destuff raw).2
      ∧ (parseFrame params v e raw).rxFlags.sent = sentFlag params.sentinel (destuff raw).1
      ∧ (parseFrame params v e raw).rxFlags.fv = fvFlag (destuff raw).1
      ∧ (parseFrame params v e raw).rxFlags.tailErr = tailErrFlag (destuff raw).1
      ∧ (parseFrame params v e raw).rxCode
          = resultCode (destuff raw).1.length (parseFrame params v e raw).rxFlags := by
  simp only [parseFrame, extractFields]
  split <;> simp

end Sys2Proof.Machine
end

