-- ==== Sys2Proof/Laws/PerInstr.lean ====
section
/-! SUPPORT. What holds of every command as syntax, one lemma per command: the word the encoder writes for it is legal
(30_encoding.md R67), whatever its operand. -/

namespace Sys2Proof.Laws.LegalWord

open Sys2Proof Sys2Proof.Machine

/-- The word of the command passes the legality check (R67). -/
def Statement (i : Instr) : Prop := legal (encode i) = true

theorem legal_none {op : Byte} (h : formOf op = some .none) : legal (commandWord op 0) = true := by
  simp [legal, h]

theorem legal_byte {op : Byte} (h : formOf op = some .byte) (b : Byte) :
    legal (commandWord op (b.setWidth 16)) = true := by
  simp [legal, h]

theorem legal_half {op : Byte} (h : formOf op = some .half) (v : Half) : legal (commandWord op v) = true := by
  simp [legal, h]

theorem nop : Statement .nop := legal_none (by decide)
theorem crcInit : Statement .crcInit := legal_none (by decide)
theorem crcByte (b : Byte) : Statement (.crcByte b) := legal_byte (by decide) b
theorem txFirst (b : Byte) : Statement (.txFirst b) := legal_byte (by decide) b
theorem txBody (b : Byte) : Statement (.txBody b) := legal_byte (by decide) b
theorem txLast (b : Byte) : Statement (.txLast b) := legal_byte (by decide) b
theorem dsByte (b : Byte) : Statement (.dsByte b) := legal_byte (by decide) b
theorem dsEnd : Statement .dsEnd := legal_none (by decide)
theorem rxArm : Statement .rxArm := legal_none (by decide)
theorem rxByte (b : Byte) : Statement (.rxByte b) := legal_byte (by decide) b
theorem rxTimeout : Statement .rxTimeout := legal_none (by decide)
theorem setExpid (v : Half) : Statement (.setExpid v) := legal_half (by decide) v
theorem buildReq (v : Half) : Statement (.buildReq v) := legal_half (by decide) v

end Sys2Proof.Laws.LegalWord
end

