-- ==== Sys2Proof/Laws/State.lean ====
section
/-! SUPPORT. What each shared operation on the state changes and leaves: one lemma per operation, every field in
it, true by unfolding; simp takes each conjunct as a rule of its own. -/

namespace Sys2Proof.Machine

@[simp] theorem State.emitTx_fields (s : State) (xs : List Byte) :
    (s.emitTx xs).txOut = s.txOut ++ xs ∧ (s.emitTx xs).crcAcc = s.crcAcc ∧ (s.emitTx xs).txOpen = s.txOpen
      ∧ (s.emitTx xs).dsEsc = s.dsEsc ∧ (s.emitTx xs).dsLast = s.dsLast ∧ (s.emitTx xs).dsValid = s.dsValid
      ∧ (s.emitTx xs).rxState = s.rxState ∧ (s.emitTx xs).raw = s.raw ∧ (s.emitTx xs).plain = s.plain
      ∧ (s.emitTx xs).parsed = s.parsed ∧ (s.emitTx xs).reqCrc = s.reqCrc ∧ (s.emitTx xs).expVarid = s.expVarid
      ∧ (s.emitTx xs).errIllegal = s.errIllegal ∧ (s.emitTx xs).errTxseq = s.errTxseq
      ∧ (s.emitTx xs).errRxdrop = s.errRxdrop ∧ (s.emitTx xs).errDstrunc = s.errDstrunc
      ∧ (s.emitTx xs).evtRxdone = s.evtRxdone ∧ (s.emitTx xs).ctrlRxie = s.ctrlRxie
      ∧ (s.emitTx xs).ctrlErrie = s.ctrlErrie ∧ (s.emitTx xs).dsOut = s.dsOut ∧ (s.emitTx xs).params = s.params
      ∧ (s.emitTx xs).inReset = s.inReset ∧ (s.emitTx xs).pending = s.pending
      ∧ (s.emitTx xs).responses = s.responses := by
  simp [State.emitTx]

@[simp] theorem State.emitDs_fields (s : State) (xs : List Byte) :
    (s.emitDs xs).dsOut = s.dsOut ++ xs ∧ (s.emitDs xs).crcAcc = s.crcAcc ∧ (s.emitDs xs).txOpen = s.txOpen
      ∧ (s.emitDs xs).dsEsc = s.dsEsc ∧ (s.emitDs xs).dsLast = s.dsLast ∧ (s.emitDs xs).dsValid = s.dsValid
      ∧ (s.emitDs xs).rxState = s.rxState ∧ (s.emitDs xs).raw = s.raw ∧ (s.emitDs xs).plain = s.plain
      ∧ (s.emitDs xs).parsed = s.parsed ∧ (s.emitDs xs).reqCrc = s.reqCrc ∧ (s.emitDs xs).expVarid = s.expVarid
      ∧ (s.emitDs xs).errIllegal = s.errIllegal ∧ (s.emitDs xs).errTxseq = s.errTxseq
      ∧ (s.emitDs xs).errRxdrop = s.errRxdrop ∧ (s.emitDs xs).errDstrunc = s.errDstrunc
      ∧ (s.emitDs xs).evtRxdone = s.evtRxdone ∧ (s.emitDs xs).ctrlRxie = s.ctrlRxie
      ∧ (s.emitDs xs).ctrlErrie = s.ctrlErrie ∧ (s.emitDs xs).txOut = s.txOut ∧ (s.emitDs xs).params = s.params
      ∧ (s.emitDs xs).inReset = s.inReset ∧ (s.emitDs xs).pending = s.pending
      ∧ (s.emitDs xs).responses = s.responses := by
  simp [State.emitDs]

@[simp] theorem State.setErrTxseqIf_fields (s : State) (c : Bool) :
    (s.setErrTxseqIf c).errTxseq = (s.errTxseq || c) ∧ (s.setErrTxseqIf c).crcAcc = s.crcAcc
      ∧ (s.setErrTxseqIf c).txOpen = s.txOpen ∧ (s.setErrTxseqIf c).dsEsc = s.dsEsc
      ∧ (s.setErrTxseqIf c).dsLast = s.dsLast ∧ (s.setErrTxseqIf c).dsValid = s.dsValid
      ∧ (s.setErrTxseqIf c).rxState = s.rxState ∧ (s.setErrTxseqIf c).raw = s.raw
      ∧ (s.setErrTxseqIf c).plain = s.plain ∧ (s.setErrTxseqIf c).parsed = s.parsed
      ∧ (s.setErrTxseqIf c).reqCrc = s.reqCrc ∧ (s.setErrTxseqIf c).expVarid = s.expVarid
      ∧ (s.setErrTxseqIf c).errIllegal = s.errIllegal ∧ (s.setErrTxseqIf c).errRxdrop = s.errRxdrop
      ∧ (s.setErrTxseqIf c).errDstrunc = s.errDstrunc ∧ (s.setErrTxseqIf c).evtRxdone = s.evtRxdone
      ∧ (s.setErrTxseqIf c).ctrlRxie = s.ctrlRxie ∧ (s.setErrTxseqIf c).ctrlErrie = s.ctrlErrie
      ∧ (s.setErrTxseqIf c).txOut = s.txOut ∧ (s.setErrTxseqIf c).dsOut = s.dsOut
      ∧ (s.setErrTxseqIf c).params = s.params ∧ (s.setErrTxseqIf c).inReset = s.inReset
      ∧ (s.setErrTxseqIf c).pending = s.pending ∧ (s.setErrTxseqIf c).responses = s.responses := by
  simp [State.setErrTxseqIf]

@[simp] theorem State.respond_fields (s : State) (r : Response) :
    (s.respond r).responses = s.responses ++ [r] ∧ (s.respond r).crcAcc = s.crcAcc
      ∧ (s.respond r).txOpen = s.txOpen ∧ (s.respond r).dsEsc = s.dsEsc ∧ (s.respond r).dsLast = s.dsLast
      ∧ (s.respond r).dsValid = s.dsValid ∧ (s.respond r).rxState = s.rxState ∧ (s.respond r).raw = s.raw
      ∧ (s.respond r).plain = s.plain ∧ (s.respond r).parsed = s.parsed ∧ (s.respond r).reqCrc = s.reqCrc
      ∧ (s.respond r).expVarid = s.expVarid ∧ (s.respond r).errIllegal = s.errIllegal
      ∧ (s.respond r).errTxseq = s.errTxseq ∧ (s.respond r).errRxdrop = s.errRxdrop
      ∧ (s.respond r).errDstrunc = s.errDstrunc ∧ (s.respond r).evtRxdone = s.evtRxdone
      ∧ (s.respond r).ctrlRxie = s.ctrlRxie ∧ (s.respond r).ctrlErrie = s.ctrlErrie
      ∧ (s.respond r).txOut = s.txOut ∧ (s.respond r).dsOut = s.dsOut ∧ (s.respond r).params = s.params
      ∧ (s.respond r).inReset = s.inReset ∧ (s.respond r).pending = s.pending := by
  simp [State.respond]

@[simp] theorem State.withPending_fields (s : State) (rest : List HostEvent) :
    (s.withPending rest).pending = rest ∧ (s.withPending rest).crcAcc = s.crcAcc
      ∧ (s.withPending rest).txOpen = s.txOpen ∧ (s.withPending rest).dsEsc = s.dsEsc
      ∧ (s.withPending rest).dsLast = s.dsLast ∧ (s.withPending rest).dsValid = s.dsValid
      ∧ (s.withPending rest).rxState = s.rxState ∧ (s.withPending rest).raw = s.raw
      ∧ (s.withPending rest).plain = s.plain ∧ (s.withPending rest).parsed = s.parsed
      ∧ (s.withPending rest).reqCrc = s.reqCrc ∧ (s.withPending rest).expVarid = s.expVarid
      ∧ (s.withPending rest).errIllegal = s.errIllegal ∧ (s.withPending rest).errTxseq = s.errTxseq
      ∧ (s.withPending rest).errRxdrop = s.errRxdrop ∧ (s.withPending rest).errDstrunc = s.errDstrunc
      ∧ (s.withPending rest).evtRxdone = s.evtRxdone ∧ (s.withPending rest).ctrlRxie = s.ctrlRxie
      ∧ (s.withPending rest).ctrlErrie = s.ctrlErrie ∧ (s.withPending rest).txOut = s.txOut
      ∧ (s.withPending rest).dsOut = s.dsOut ∧ (s.withPending rest).params = s.params
      ∧ (s.withPending rest).inReset = s.inReset ∧ (s.withPending rest).responses = s.responses := by
  simp [State.withPending]

@[simp] theorem State.setErrIllegal_fields (s : State) :
    s.setErrIllegal.errIllegal = true ∧ s.setErrIllegal.crcAcc = s.crcAcc ∧ s.setErrIllegal.txOpen = s.txOpen
      ∧ s.setErrIllegal.dsEsc = s.dsEsc ∧ s.setErrIllegal.dsLast = s.dsLast ∧ s.setErrIllegal.dsValid = s.dsValid
      ∧ s.setErrIllegal.rxState = s.rxState ∧ s.setErrIllegal.raw = s.raw ∧ s.setErrIllegal.plain = s.plain
      ∧ s.setErrIllegal.parsed = s.parsed ∧ s.setErrIllegal.reqCrc = s.reqCrc
      ∧ s.setErrIllegal.expVarid = s.expVarid ∧ s.setErrIllegal.errTxseq = s.errTxseq
      ∧ s.setErrIllegal.errRxdrop = s.errRxdrop ∧ s.setErrIllegal.errDstrunc = s.errDstrunc
      ∧ s.setErrIllegal.evtRxdone = s.evtRxdone ∧ s.setErrIllegal.ctrlRxie = s.ctrlRxie
      ∧ s.setErrIllegal.ctrlErrie = s.ctrlErrie ∧ s.setErrIllegal.txOut = s.txOut
      ∧ s.setErrIllegal.dsOut = s.dsOut ∧ s.setErrIllegal.params = s.params
      ∧ s.setErrIllegal.inReset = s.inReset ∧ s.setErrIllegal.pending = s.pending
      ∧ s.setErrIllegal.responses = s.responses := by
  simp [State.setErrIllegal]

@[simp] theorem State.setErrRxdrop_fields (s : State) :
    s.setErrRxdrop.errRxdrop = true ∧ s.setErrRxdrop.crcAcc = s.crcAcc ∧ s.setErrRxdrop.txOpen = s.txOpen
      ∧ s.setErrRxdrop.dsEsc = s.dsEsc ∧ s.setErrRxdrop.dsLast = s.dsLast ∧ s.setErrRxdrop.dsValid = s.dsValid
      ∧ s.setErrRxdrop.rxState = s.rxState ∧ s.setErrRxdrop.raw = s.raw ∧ s.setErrRxdrop.plain = s.plain
      ∧ s.setErrRxdrop.parsed = s.parsed ∧ s.setErrRxdrop.reqCrc = s.reqCrc
      ∧ s.setErrRxdrop.expVarid = s.expVarid ∧ s.setErrRxdrop.errIllegal = s.errIllegal
      ∧ s.setErrRxdrop.errTxseq = s.errTxseq ∧ s.setErrRxdrop.errDstrunc = s.errDstrunc
      ∧ s.setErrRxdrop.evtRxdone = s.evtRxdone ∧ s.setErrRxdrop.ctrlRxie = s.ctrlRxie
      ∧ s.setErrRxdrop.ctrlErrie = s.ctrlErrie ∧ s.setErrRxdrop.txOut = s.txOut
      ∧ s.setErrRxdrop.dsOut = s.dsOut ∧ s.setErrRxdrop.params = s.params ∧ s.setErrRxdrop.inReset = s.inReset
      ∧ s.setErrRxdrop.pending = s.pending ∧ s.setErrRxdrop.responses = s.responses := by
  simp [State.setErrRxdrop]

@[simp] theorem State.setErrDstruncIf_fields (s : State) (c : Bool) :
    (s.setErrDstruncIf c).errDstrunc = (s.errDstrunc || c) ∧ (s.setErrDstruncIf c).crcAcc = s.crcAcc
      ∧ (s.setErrDstruncIf c).txOpen = s.txOpen ∧ (s.setErrDstruncIf c).dsEsc = s.dsEsc
      ∧ (s.setErrDstruncIf c).dsLast = s.dsLast ∧ (s.setErrDstruncIf c).dsValid = s.dsValid
      ∧ (s.setErrDstruncIf c).rxState = s.rxState ∧ (s.setErrDstruncIf c).raw = s.raw
      ∧ (s.setErrDstruncIf c).plain = s.plain ∧ (s.setErrDstruncIf c).parsed = s.parsed
      ∧ (s.setErrDstruncIf c).reqCrc = s.reqCrc ∧ (s.setErrDstruncIf c).expVarid = s.expVarid
      ∧ (s.setErrDstruncIf c).errIllegal = s.errIllegal ∧ (s.setErrDstruncIf c).errTxseq = s.errTxseq
      ∧ (s.setErrDstruncIf c).errRxdrop = s.errRxdrop ∧ (s.setErrDstruncIf c).evtRxdone = s.evtRxdone
      ∧ (s.setErrDstruncIf c).ctrlRxie = s.ctrlRxie ∧ (s.setErrDstruncIf c).ctrlErrie = s.ctrlErrie
      ∧ (s.setErrDstruncIf c).txOut = s.txOut ∧ (s.setErrDstruncIf c).dsOut = s.dsOut
      ∧ (s.setErrDstruncIf c).params = s.params ∧ (s.setErrDstruncIf c).inReset = s.inReset
      ∧ (s.setErrDstruncIf c).pending = s.pending ∧ (s.setErrDstruncIf c).responses = s.responses := by
  simp [State.setErrDstruncIf]

@[simp] theorem State.finish_fields (s : State) (e : RxEnd) :
    (s.finish e).plain = (destuff s.raw).1 ∧ (s.finish e).parsed = parseFrame s.params s.expVarid e s.raw
      ∧ (s.finish e).rxState = .done ∧ (s.finish e).evtRxdone = true ∧ (s.finish e).crcAcc = s.crcAcc
      ∧ (s.finish e).txOpen = s.txOpen ∧ (s.finish e).dsEsc = s.dsEsc ∧ (s.finish e).dsLast = s.dsLast
      ∧ (s.finish e).dsValid = s.dsValid ∧ (s.finish e).raw = s.raw ∧ (s.finish e).reqCrc = s.reqCrc
      ∧ (s.finish e).expVarid = s.expVarid ∧ (s.finish e).errIllegal = s.errIllegal
      ∧ (s.finish e).errTxseq = s.errTxseq ∧ (s.finish e).errRxdrop = s.errRxdrop
      ∧ (s.finish e).errDstrunc = s.errDstrunc ∧ (s.finish e).ctrlRxie = s.ctrlRxie
      ∧ (s.finish e).ctrlErrie = s.ctrlErrie ∧ (s.finish e).txOut = s.txOut ∧ (s.finish e).dsOut = s.dsOut
      ∧ (s.finish e).params = s.params ∧ (s.finish e).inReset = s.inReset ∧ (s.finish e).pending = s.pending
      ∧ (s.finish e).responses = s.responses := by
  simp [State.finish]

@[simp] theorem State.clearSticky_fields (s : State) (v : Word) :
    (s.clearSticky v).errIllegal = (s.errIllegal && !v.getLsbD 8)
      ∧ (s.clearSticky v).errTxseq = (s.errTxseq && !v.getLsbD 9)
      ∧ (s.clearSticky v).errRxdrop = (s.errRxdrop && !v.getLsbD 10)
      ∧ (s.clearSticky v).errDstrunc = (s.errDstrunc && !v.getLsbD 11)
      ∧ (s.clearSticky v).evtRxdone = (s.evtRxdone && !v.getLsbD 16)
      ∧ (s.clearSticky v).crcAcc = s.crcAcc ∧ (s.clearSticky v).txOpen = s.txOpen
      ∧ (s.clearSticky v).dsEsc = s.dsEsc ∧ (s.clearSticky v).dsLast = s.dsLast
      ∧ (s.clearSticky v).dsValid = s.dsValid ∧ (s.clearSticky v).rxState = s.rxState
      ∧ (s.clearSticky v).raw = s.raw ∧ (s.clearSticky v).plain = s.plain ∧ (s.clearSticky v).parsed = s.parsed
      ∧ (s.clearSticky v).reqCrc = s.reqCrc ∧ (s.clearSticky v).expVarid = s.expVarid
      ∧ (s.clearSticky v).ctrlRxie = s.ctrlRxie ∧ (s.clearSticky v).ctrlErrie = s.ctrlErrie
      ∧ (s.clearSticky v).txOut = s.txOut ∧ (s.clearSticky v).dsOut = s.dsOut
      ∧ (s.clearSticky v).params = s.params ∧ (s.clearSticky v).inReset = s.inReset
      ∧ (s.clearSticky v).pending = s.pending ∧ (s.clearSticky v).responses = s.responses := by
  simp [State.clearSticky]

/-- A byte in COLLECT touches the buffers, the results, the phase and the event alone (R110, R113). -/
@[simp] theorem State.collectByte_fields (s : State) (b : Byte) :
    (s.collectByte b).crcAcc = s.crcAcc ∧ (s.collectByte b).txOpen = s.txOpen
      ∧ (s.collectByte b).dsEsc = s.dsEsc ∧ (s.collectByte b).dsLast = s.dsLast
      ∧ (s.collectByte b).dsValid = s.dsValid ∧ (s.collectByte b).reqCrc = s.reqCrc
      ∧ (s.collectByte b).expVarid = s.expVarid ∧ (s.collectByte b).errIllegal = s.errIllegal
      ∧ (s.collectByte b).errTxseq = s.errTxseq ∧ (s.collectByte b).errRxdrop = s.errRxdrop
      ∧ (s.collectByte b).errDstrunc = s.errDstrunc ∧ (s.collectByte b).ctrlRxie = s.ctrlRxie
      ∧ (s.collectByte b).ctrlErrie = s.ctrlErrie ∧ (s.collectByte b).txOut = s.txOut
      ∧ (s.collectByte b).dsOut = s.dsOut ∧ (s.collectByte b).params = s.params
      ∧ (s.collectByte b).inReset = s.inReset ∧ (s.collectByte b).pending = s.pending
      ∧ (s.collectByte b).responses = s.responses
      ∧ (s.collectByte b).raw = s.raw ++ [b] := by
  unfold State.collectByte
  split
  · simp
  · simp only []
    split <;> simp

/-- The three outcomes of a byte in COLLECT (R110, R112). -/
theorem State.collectByte_cases (s : State) (b : Byte) :
    (b = frameEnd ∧ s.collectByte b = ({ s with raw := s.raw ++ [b] } : State).finish .term)
      ∨ (b ≠ frameEnd ∧ s.raw.length + 1 = s.params.rxMax
          ∧ s.collectByte b = ({ s with raw := s.raw ++ [b] } : State).finish .full)
      ∨ (b ≠ frameEnd ∧ s.raw.length + 1 ≠ s.params.rxMax ∧ s.collectByte b = { s with raw := s.raw ++ [b] }) := by
  unfold State.collectByte
  by_cases h : b = frameEnd
  · simp [h]
  · by_cases hl : s.raw.length + 1 = s.params.rxMax <;> simp [h, hl]

/-- The decoder's output of a byte touches its port, its last byte and the validity of that (R95). -/
@[simp] theorem State.decoderEmit_fields (s : State) (b : Byte) :
    (s.decoderEmit b).dsOut = s.dsOut ++ [b] ∧ (s.decoderEmit b).dsLast = b ∧ (s.decoderEmit b).dsValid = true
      ∧ (s.decoderEmit b).crcAcc = s.crcAcc ∧ (s.decoderEmit b).txOpen = s.txOpen
      ∧ (s.decoderEmit b).dsEsc = s.dsEsc ∧ (s.decoderEmit b).rxState = s.rxState
      ∧ (s.decoderEmit b).raw = s.raw ∧ (s.decoderEmit b).plain = s.plain
      ∧ (s.decoderEmit b).parsed = s.parsed ∧ (s.decoderEmit b).reqCrc = s.reqCrc
      ∧ (s.decoderEmit b).expVarid = s.expVarid ∧ (s.decoderEmit b).errIllegal = s.errIllegal
      ∧ (s.decoderEmit b).errTxseq = s.errTxseq ∧ (s.decoderEmit b).errRxdrop = s.errRxdrop
      ∧ (s.decoderEmit b).errDstrunc = s.errDstrunc ∧ (s.decoderEmit b).evtRxdone = s.evtRxdone
      ∧ (s.decoderEmit b).ctrlRxie = s.ctrlRxie ∧ (s.decoderEmit b).ctrlErrie = s.ctrlErrie
      ∧ (s.decoderEmit b).txOut = s.txOut ∧ (s.decoderEmit b).params = s.params
      ∧ (s.decoderEmit b).inReset = s.inReset ∧ (s.decoderEmit b).pending = s.pending
      ∧ (s.decoderEmit b).responses = s.responses := by
  simp [State.decoderEmit]

end Sys2Proof.Machine
end

