-- ==== Sys2Proof/Laws/Step.lean ====
section
/-! SUPPORT. Everything a step can do (00_scope.md R12): one inversion lemma, from which the whole-machine rules
follow by cases. -/

namespace Sys2Proof.Machine

theorem accessOk_iff (addr : RegAddr) (n : Nat) : accessOk addr n = true ↔ n = 4 ∧ addr.toNat % 4 = 0 := by
  have : (addr.extractLsb' 0 2 = 0#2) ↔ addr.toNat % 4 = 0 := by
    rw [← BitVec.toNat_inj]
    simp [BitVec.extractLsb'_toNat]
  simp [accessOk, this]

/-- CMD is at 0x000 alone. -/
theorem registerAt_eq_cmd_iff (addr : RegAddr) : registerAt addr = some .cmd ↔ addr = 0x000 := by
  constructor
  · intro h
    unfold registerAt at h
    split at h <;> simp_all
    split at h <;> simp_all
  · rintro rfl; rfl

theorem withResponse_eq_next_iff (r : Response) (o : Host.Outcome State Fault Refusal) (t : State) :
    withResponse r o = .next t ↔ ∃ u, o = .next u ∧ t = u.respond r := by
  cases o <;> simp [withResponse, eq_comm]

/-- An accepted access is what the step runs, on the state with the access taken. -/
theorem step_of_faces {s : State} {a : Access} {rest : List HostEvent} (h : s.Faces a rest) :
    step s = runAccess a (s.withPending rest) := by
  simp [step, takeEvent, h.2, runEvent, h.1]

theorem memWrite_cmd (w : Word) (s : State) :
    memWrite 0x000 4 w s = withResponse .completed (runCommand w s) := rfl

/-- An aligned 32-bit write to anything but CMD. -/
theorem memWrite_register {addr : RegAddr} (halign : addr.toNat % 4 = 0) (hcmd : addr ≠ 0x000) (v : Word)
    (s : State) :
    memWrite addr 4 v s = .next ((s.writeRegister (registerAt addr) v).respond .completed) := by
  have hok : accessOk addr 4 = true := (accessOk_iff addr 4).2 ⟨rfl, halign⟩
  have hne : registerAt addr ≠ some .cmd := fun h => hcmd ((registerAt_eq_cmd_iff addr).1 h)
  simp only [memWrite, hok, if_true, hne, if_false, withResponse]

/-- A write that is narrow or misaligned. -/
theorem memWrite_bad {addr : RegAddr} {n : Nat} (hbad : accessOk addr n = false) (v : Word) (s : State) :
    memWrite addr n v s = .next (s.respond (.busError addr)) := by
  simp [memWrite, hbad]

/-- The four kinds of accepted access and the two other things a step can do. In each case `t` is the state after. -/
inductive StepCase (s t : State) : Prop where
  | idle (h : s.pending = []) (ht : t = s)
  | reset (asserted : Bool) (rest : List HostEvent) (h : s.pending = .resetLevel asserted :: rest)
      (ht : t = (s.withPending rest).resetLevel asserted)
  | read (addr : RegAddr) (n : Nat) (rest : List HostEvent) (h : s.Faces (.read addr n) rest)
      (ht : t = (s.withPending rest).respond (s.memRead addr n))
  | badWrite (addr : RegAddr) (n : Nat) (v : Word) (rest : List HostEvent) (h : s.Faces (.write addr n v) rest)
      (hbad : accessOk addr n = false) (ht : t = (s.withPending rest).respond (.busError addr))
  | illegal (w : Word) (rest : List HostEvent) (h : s.Faces (commandAccess w) rest) (e : DecodeError)
      (he : decode w = .error e)
      (ht : t = ((s.withPending rest).setErrIllegal).respond .completed)
  | command (i : Instr) (w : Word) (rest : List HostEvent) (h : s.Faces (commandAccess w) rest)
      (hi : decode w = .ok i) (u : State) (hu : exec i (s.withPending rest) = .next u)
      (ht : t = u.respond .completed)
  | write (addr : RegAddr) (v : Word) (rest : List HostEvent) (h : s.Faces (.write addr 4 v) rest)
      (halign : addr.toNat % 4 = 0) (hcmd : addr ≠ 0x000)
      (ht : t = ((s.withPending rest).writeRegister (registerAt addr) v).respond .completed)

/-- What a step that has a next state did. -/
theorem step_cases {s t : State} (h : step s = .next t) : StepCase s t := by
  unfold step takeEvent at h
  split at h
  · rename_i hp
    exact .idle hp (by simpa using h.symm)
  · rename_i e rest hp
    cases e with
    | resetLevel asserted => exact .reset asserted rest hp (by simpa [runEvent] using h.symm)
    | access a =>
      by_cases hr : s.inReset
      · simp [runEvent, hr] at h
      · have hf : s.Faces a rest := ⟨by simpa using hr, hp⟩
        simp only [runEvent, State.withPending_fields, hr, if_false, Bool.false_eq_true] at h
        cases a with
        | read addr n =>
          refine .read addr n rest hf ?_
          have hv : (s.withPending rest).memRead addr n = s.memRead addr n := rfl
          simpa [runAccess, hv] using h.symm
        | write addr n v =>
          simp only [runAccess, memWrite] at h
          by_cases hok : accessOk addr n = true
          · obtain ⟨rfl, halign⟩ := (accessOk_iff addr n).1 hok
            simp only [hok, if_true, registerAt_eq_cmd_iff] at h
            obtain ⟨u, hu, ht⟩ := (withResponse_eq_next_iff _ _ _).1 h
            by_cases hc : addr = 0x000
            · subst hc
              simp only [if_true, runCommand] at hu
              split at hu
              · exact .command _ v rest hf ‹_› u hu ht
              · refine .illegal v rest hf _ ‹_› ?_
                simp only [Host.Outcome.next.injEq] at hu
                rw [ht, hu]
            · simp only [hc, if_false, Host.Outcome.next.injEq] at hu
              exact .write addr v rest hf halign hc (by rw [ht, hu])
          · simp only [Bool.not_eq_true] at hok
            simp [hok] at h
            exact .badWrite addr n v rest hf hok h.symm

/-- A register write touches the sticky bits, the two enables and the expected id alone (R127). -/
@[simp] theorem State.writeRegister_fields (s : State) (r : Option Register) (v : Word) :
    (s.writeRegister r v).crcAcc = s.crcAcc ∧ (s.writeRegister r v).txOpen = s.txOpen
      ∧ (s.writeRegister r v).dsEsc = s.dsEsc ∧ (s.writeRegister r v).dsLast = s.dsLast
      ∧ (s.writeRegister r v).dsValid = s.dsValid ∧ (s.writeRegister r v).rxState = s.rxState
      ∧ (s.writeRegister r v).raw = s.raw ∧ (s.writeRegister r v).plain = s.plain
      ∧ (s.writeRegister r v).parsed = s.parsed ∧ (s.writeRegister r v).reqCrc = s.reqCrc
      ∧ (s.writeRegister r v).txOut = s.txOut ∧ (s.writeRegister r v).dsOut = s.dsOut
      ∧ (s.writeRegister r v).params = s.params ∧ (s.writeRegister r v).inReset = s.inReset
      ∧ (s.writeRegister r v).pending = s.pending ∧ (s.writeRegister r v).responses = s.responses := by
  unfold State.writeRegister
  split <;> simp

/-- STATUS is at 0x004 alone. -/
theorem eq_of_registerAt_status {addr : RegAddr} (h : registerAt addr = some .status) : addr = 0x004 := by
  unfold registerAt at h
  split at h <;> simp_all
  split at h <;> simp_all

/-- CTRL is at 0x008 alone. -/
theorem eq_of_registerAt_ctrl {addr : RegAddr} (h : registerAt addr = some .ctrl) : addr = 0x008 := by
  unfold registerAt at h
  split at h <;> simp_all
  split at h <;> simp_all

/-- EXP_VARID is at 0x01C alone. -/
theorem eq_of_registerAt_expVarid {addr : RegAddr} (h : registerAt addr = some .expVarid) : addr = 0x01C := by
  unfold registerAt at h
  split at h <;> simp_all
  split at h <;> simp_all

/-- A level of the reset input changes the level alone, or is the release (R146, R147). -/
theorem State.resetLevel_cases (s : State) (rest : List HostEvent) (asserted : Bool)
    (h : s.pending = .resetLevel asserted :: rest) :
    (∃ r, (s.withPending rest).resetLevel asserted = { s.withPending rest with inReset := r })
      ∨ (s.LeavesReset ∧ (s.withPending rest).resetLevel asserted =
          { State.resetWith s.params with
            txOut := s.txOut, dsOut := s.dsOut, pending := rest, responses := s.responses }) := by
  unfold State.resetLevel
  cases asserted with
  | true => exact .inl ⟨true, by simp⟩
  | false =>
    cases hr : s.inReset with
    | true =>
      refine .inr ⟨⟨hr, rest, h⟩, ?_⟩
      simp [hr, State.applyReset]
      rfl
    | false => exact .inl ⟨false, by simp [hr]; simp [State.withPending, hr]⟩

end Sys2Proof.Machine
end

