-- ==== Sys2Proof/Laws/Stuffing.lean ====
section
/-! SUPPORT. The equations of the codec's functions (41_stuffing.md R88, R97), one per case, and how `destuff` acts on
two lists one after the other. -/

namespace Sys2Proof.Machine

theorem enc_of_mem {b : Byte} (h : b ∈ reserved) : enc b = [esc, b ^^^ 0xFF] := by simp [enc, h]

theorem enc_of_not_mem {b : Byte} (h : b ∉ reserved) : enc b = [b] := by simp [enc, h]

theorem esc_mem_reserved : esc ∈ reserved := by decide

@[simp] theorem destuff_nil : destuff [] = ([], false) := rfl

@[simp] theorem destuff_lone_marker : destuff [esc] = ([], true) := rfl

theorem destuff_marker (c : Byte) (rest : List Byte) :
    destuff (esc :: c :: rest) = ((c ^^^ 0xFF) :: (destuff rest).1, (destuff rest).2) := by
  simp [destuff]

theorem destuff_plain {b : Byte} (h : b ≠ esc) (rest : List Byte) :
    destuff (b :: rest) = (b :: (destuff rest).1, (destuff rest).2) := by
  cases rest <;> simp [destuff, h]

/-- A part that de-stuffs whole can be de-stuffed by itself. -/
theorem destuff_append (xs ys : List Byte) (h : (destuff xs).2 = false) :
    destuff (xs ++ ys) = ((destuff xs).1 ++ (destuff ys).1, (destuff ys).2) := by
  induction xs using destuff.induct with
  | case1 => simp
  | case2 => simp [destuff] at h
  | case3 b hb => simp [destuff_plain hb]
  | case4 c rest ih =>
    rw [destuff_marker] at h ⊢
    simp [destuff_marker, ih h]
  | case5 b c rest hb ih =>
    rw [destuff_plain hb] at h ⊢
    have := ih h
    simp only [List.cons_append] at this ⊢
    rw [destuff_plain hb, this]

/-- The wire form of one interior byte de-stuffs to that byte, whatever follows. -/
theorem destuff_enc_append (b : Byte) (rest : List Byte) :
    destuff (enc b ++ rest) = (b :: (destuff rest).1, (destuff rest).2) := by
  by_cases h : b ∈ reserved
  · simp [enc_of_mem h, destuff_marker]
  · have hb : b ≠ esc := fun e => h (e ▸ esc_mem_reserved)
    simp [enc_of_not_mem h, destuff_plain hb]

theorem destuff_interior_append (interior rest : List Byte) :
    destuff (interior.flatMap enc ++ rest) = (interior ++ (destuff rest).1, (destuff rest).2) := by
  induction interior with
  | nil => simp
  | cons b bs ih => simp [List.append_assoc, destuff_enc_append, ih]

/-- De-stuffing never adds a byte. -/
theorem destuff_length_le (xs : List Byte) : (destuff xs).1.length ≤ xs.length := by
  induction xs using destuff.induct with
  | case1 => simp
  | case2 => simp [destuff]
  | case3 b hb => simp [destuff_plain hb]
  | case4 c rest ih => simp [destuff_marker]; omega
  | case5 b c rest hb ih =>
    rw [destuff_plain hb]
    simpa using ih

end Sys2Proof.Machine
end

