-- ==== Sys2Proof/Tests/Slice0.lean ====
section
/-! SUPPORT. Tests against the vectors of 95_test_vectors.md (each names its section), the smoke test of the
well-formedness checks, and a witness for the hypotheses of every statement that has some. -/

namespace Sys2Proof.Tests

open Sys2Proof Sys2Proof.Machine

/-- The start state of the vectors: RX_MAX = 32, SENTINEL = none (95_test_vectors.md, conventions). -/
def start : State := .resetWith ⟨23, none⟩

/-- A part of the state after an outcome, nothing where it is a stop. -/
def after {α : Type} (f : State → α) : Host.Outcome State Fault Refusal → Option α
  | .next t => some (f t)
  | .fault _ | .refused _ => none

/-- `s` with one access to come. -/
def facing (s : State) (a : Access) : State := { s with pending := [.access a] }

/-- `s` in COLLECT with `raw` received. -/
def collecting (s : State) (raw : List Byte) : State := { s with rxState := .collect, raw := raw }

/-- The raw bytes of V1 but for the end token (section 2.5). -/
def v1Front : List Byte := [0x40, 0x3F, 0x10, 0x03, 0xFF, 0x01, 0x02, 0x00, 0x00, 0x0A, 0x3B, 0xAC]

/-- The reader before the last byte of V1. -/
def v1Before : State := collecting { start with expVarid := 0x03FF } v1Front

/-- The reader after V1. -/
def v1Done : State := ({ v1Before with raw := v1Front ++ [0x0D] } : State).finish .term

/-! ### Well-formedness: the checks refuse ill-formed terms -/

/-- Section 2.6: an undefined opcode. -/
theorem test_wellFormed_undefinedOpcode : legal 0x40000000 = false := by decide
/-- Section 2.6: a nonzero reserved byte. -/
theorem test_wellFormed_reserved : legal 0x00010000 = false := by decide
/-- Section 2.6: an N form with an operand. -/
theorem test_wellFormed_operandOfNone : legal 0x01000001 = false := by decide
/-- Section 2.6: a B form with a wide operand. -/
theorem test_wellFormed_wideByte : legal 0x02000100 = false := by decide
/-- Section 2.6: the last legal B operand and the last legal H operand. -/
theorem test_wellFormed_legal : legal 0x020000FF = true ∧ legal 0x3000FFFF = true := by decide
/-- R74, R94: STUFF of one byte is not defined. -/
theorem test_wellFormed_stuff : (Pseudo.stuff [0x80]).wellFormed = false := by decide
/-- R55: a misaligned and a narrow access. -/
theorem test_wellFormed_access :
    (Access.read 0x002 4).wellFormed = false ∧ (Access.write 0x000 1 0x10000080).wellFormed = false := by decide

/-! ### Decoding: a word of each command, written out from R64 to R66 as op, rsv, imm16 -/

theorem test_decode_nop : decode 0b00000000_00000000_0000000000000000 = .ok .nop := by decide
theorem test_decode_crcInit : decode 0b00000001_00000000_0000000000000000 = .ok .crcInit := by decide
theorem test_decode_crcByte : decode 0b00000010_00000000_0000000000111111 = .ok (.crcByte 0x3F) := by decide
theorem test_decode_txFirst : decode 0b00010000_00000000_0000000010000000 = .ok (.txFirst 0x80) := by decide
theorem test_decode_txBody : decode 0b00010001_00000000_0000000000011011 = .ok (.txBody 0x1B) := by decide
theorem test_decode_txLast : decode 0b00010010_00000000_0000000000001101 = .ok (.txLast 0x0D) := by decide
theorem test_decode_dsByte : decode 0b00011000_00000000_0000000001000001 = .ok (.dsByte 0x41) := by decide
theorem test_decode_dsEnd : decode 0b00011001_00000000_0000000000000000 = .ok .dsEnd := by decide
theorem test_decode_rxArm : decode 0b00100000_00000000_0000000000000000 = .ok .rxArm := by decide
theorem test_decode_rxByte : decode 0b00100001_00000000_0000000001000000 = .ok (.rxByte 0x40) := by decide
theorem test_decode_rxTimeout : decode 0b00100010_00000000_0000000000000000 = .ok .rxTimeout := by decide
theorem test_decode_setExpid : decode 0b00110000_00000000_0000110101000000 = .ok (.setExpid 0x0D40) := by decide
theorem test_decode_buildReq : decode 0b00110001_00000000_0000001111111111 = .ok (.buildReq 0x03FF) := by decide

/-- Section 2.6: opcodes next to defined ones are refused by name. -/
theorem test_decode_undefined :
    decode 0x03000000 = .error (.undefinedOpcode 0x03) ∧ decode 0x13000000 = .error (.undefinedOpcode 0x13) := by
  decide
/-- Section 2.6: the reserved byte is checked for an H form too. -/
theorem test_decode_reserved : decode 0x30FFFFFF = .error (.reservedNotZero 0xFF) := by decide

/-! ### The commands, one step each -/

/-- Section 2.1, the row NOP. -/
theorem test_nop : exec .nop v1Done = .next v1Done := rfl
/-- Section 2.1, the row that ends in CRC_INIT. -/
theorem test_crcInit : after (·.crcAcc) (exec .crcInit { start with crcAcc := 0x079A }) = some 0x0000 := by decide
/-- Section 2.1: crc_step (0xC7BC, 0x10). -/
theorem test_crcByte : after (·.crcAcc) (exec (.crcByte 0x10) { start with crcAcc := 0xC7BC }) = some 0x079A := by
  decide
/-- Section 2.1: crc_step (0xFFFF, 0xFF), the truncation to 16 bits. -/
theorem test_crcByte_truncates :
    after (·.crcAcc) (exec (.crcByte 0xFF) { start with crcAcc := 0xFFFF }) = some 0xFF00 := by decide
/-- Section 2.2: TX_FIRST is not escaped. -/
theorem test_txFirst :
    after (fun t => (t.txOut, t.readWord 0x004)) (exec (.txFirst 0x80) start) = some ([0x80], 0x00000004) := by decide
/-- Section 2.2: TX_FIRST in an open frame. -/
theorem test_txFirst_open :
    after (·.readWord 0x004) (exec (.txFirst 0x80) { start with txOpen := true }) = some 0x00000204 := by decide
/-- Section 2.2: TX_BODY of a reserved byte with no frame open. -/
theorem test_txBody_reserved :
    after (fun t => (t.txOut, t.readWord 0x004)) (exec (.txBody 0x0D) start) = some ([0x1B, 0xF2], 0x00000200) := by
  decide
/-- Section 2.2: a sentinel byte is not reserved. -/
theorem test_txBody_plain :
    after (fun t => (t.txOut, t.readWord 0x004)) (exec (.txBody 0xF9) { start with txOpen := true })
      = some ([0xF9], 0x00000004) := by decide
/-- Section 2.2: TX_LAST of a reserved byte is not escaped. -/
theorem test_txLast :
    after (fun t => (t.txOut, t.readWord 0x004)) (exec (.txLast 0x80) { start with txOpen := true })
      = some ([0x80], 0x00000000) := by decide
/-- Section 2.2: TX_LAST with no frame open. -/
theorem test_txLast_closed : after (·.readWord 0x004) (exec (.txLast 0x0D) start) = some 0x00000200 := by decide
/-- Section 2.2: a marker after a marker is an escaped byte. -/
theorem test_dsByte_escaped :
    after (fun t => (t.dsOut, t.readWord 0x020, t.readWord 0x004)) (exec (.dsByte 0x1B) { start with dsEsc := true })
      = some ([0xE4], 0x000001E4, 0x00000000) := by decide
/-- Section 2.2: a marker is pending, and nothing is emitted. -/
theorem test_dsByte_marker :
    after (fun t => (t.dsOut, t.readWord 0x020, t.readWord 0x004)) (exec (.dsByte 0x1B) start)
      = some ([], 0x00000000, 0x00000008) := by decide
/-- Section 2.2: DS_END with a marker pending. -/
theorem test_dsEnd_pending :
    after (fun t => (t.dsOut, t.readWord 0x004)) (exec .dsEnd { start with dsEsc := true })
      = some ([], 0x00000800) := by decide
/-- Section 2.2: DS_END keeps the last byte and clears its validity. -/
theorem test_dsEnd :
    after (fun t => (t.readWord 0x020, t.readWord 0x004))
      (exec .dsEnd { start with dsLast := 0x41, dsValid := true, dsOut := [0x41] })
      = some (0x00000041, 0x00000000) := by decide
/-- Section 2.4: RX_ARM from reset. -/
theorem test_rxArm : after (·.readWord 0x004) (exec .rxArm start) = some 0x00000001 := by decide
/-- Section 2.4: V1, then RX_ARM: the results are cleared, EVT_RXDONE stays. -/
theorem test_rxArm_done :
    after (fun t => (t.readWord 0x004, t.readWord 0x024, t.readWord 0x02C)) (exec .rxArm v1Done)
      = some (0x00010001, 0, 0) := by decide
/-- Section 2.4: a byte in IDLE is dropped and flagged. -/
theorem test_rxByte_idle :
    after (fun t => (t.readWord 0x004, t.raw)) (exec (.rxByte 0x40) start) = some (0x00000400, []) := by decide
/-- Section 2.5, V1: every field of a valid response. -/
theorem test_rxByte_v1 :
    after (fun t => ([0x004, 0x024, 0x028, 0x02C, 0x030, 0x034, 0x038, 0x03C, 0x040, 0x044, 0x048].map t.readWord))
      (exec (.rxByte 0x0D) v1Before)
      = some [0x00010003, 0x00000411, 13, 13, 0x3F, 0x10, 0x03FF, 0x01, 0x3BAC, 0x3BAC, 4] := by decide
/-- Section 2.5, V7: a timeout in SYNC. -/
theorem test_rxTimeout_sync :
    after (fun t => (t.readWord 0x004, t.readWord 0x024)) (exec .rxTimeout { start with rxState := .sync })
      = some (0x00010003, 0x00000033) := by decide
/-- Section 2.5, V10: a lone marker at the end of a frame that a timeout ends. -/
theorem test_rxTimeout_collect :
    after (fun t => (t.readWord 0x024, t.readWord 0x028, t.readWord 0x02C))
      (exec .rxTimeout (collecting start [0x40, 0x3F, 0x1B])) = some (0x00010144, 3, 2) := by decide
/-- Section 2.3: SET_EXPID. -/
theorem test_setExpid :
    after (fun t => (t.readWord 0x01C, t.txOut)) (exec (.setExpid 0x0D40) start) = some (0x00000D40, []) := by decide
/-- Section 2.3: the request for 0x0784, whose checksum is escaped whole. -/
theorem test_buildReq :
    after (fun t => (t.txOut, t.readWord 0x018, t.readWord 0x01C)) (exec (.buildReq 0x0784) start)
      = some ([0x80, 0x3F, 0x10, 0x01, 0x07, 0x84, 0x1B, 0xF2, 0x1B, 0xE4, 0x0D], 0x0D1B, 0x0784) := by decide
/-- Section 2.2: BUILD_REQ in an open frame. -/
theorem test_buildReq_open :
    after (fun t => (t.readWord 0x004, t.readWord 0x014)) (exec (.buildReq 0x03FF) { start with txOpen := true })
      = some (0x00000200, 0) := by decide

/-! ### The parser's other outcomes (section 2.5) -/

/-- V5: unit 0x40 and a stuffed checksum byte. -/
theorem test_parse_v5 :
    after (fun t => ([0x024, 0x028, 0x02C, 0x03C, 0x040, 0x044].map t.readWord))
      (exec (.rxByte 0x0D) (collecting { start with expVarid := 0x03FF }
        [0x40, 0x3F, 0x10, 0x03, 0xFF, 0x1B, 0xBF, 0x02, 0x00, 0x00, 0x0A, 0x1B, 0x7F, 0x95]))
      = some [0x00000411, 15, 13, 0x40, 0x8095, 0x8095] := by decide
/-- V12: the frame is the sentinel. -/
theorem test_parse_v12 :
    after (·.readWord 0x024)
      (exec (.rxByte 0x0D) (collecting (.resetWith ⟨23, some #v[0x40, 0x3F, 0x10, 0xAA, 0xBB, 0x0D]⟩)
        [0x40, 0x3F, 0x10, 0xAA, 0xBB])) = some 0x00000212 := by decide
/-- V15: a wrong type and an empty payload. -/
theorem test_parse_v15 :
    after (fun t => ([0x024, 0x048].map t.readWord))
      (exec (.rxByte 0x0D) (collecting { start with expVarid := 0x03FF }
        [0x40, 0x3F, 0x11, 0x03, 0xFF, 0x01, 0x4E, 0x8A])) = some [0x00002415, 0] := by decide
/-- V17: the byte that fills the buffer is the end token. -/
theorem test_parse_v17 :
    after (·.readWord 0x024)
      (exec (.rxByte 0x0D) (collecting { State.resetWith ⟨0, none⟩ with expVarid := 0x03FF }
        [0x40, 0x3F, 0x10, 0x03, 0xFF, 0x01, 0x02, 0x00])) = some 0x00000C11 := by decide
/-- V18: the byte that fills the buffer is another. -/
theorem test_parse_v18 :
    after (·.readWord 0x024)
      (exec (.rxByte 0x0E) (collecting { State.resetWith ⟨0, none⟩ with expVarid := 0x03FF }
        [0x40, 0x3F, 0x10, 0x03, 0xFF, 0x01, 0x02, 0x00])) = some 0x00010C21 := by decide

/-! ### The bus, irq and reset (section 2.7) -/

/-- A narrow write of TX_FIRST runs no command. -/
theorem test_bus_narrow :
    after (fun t => (t.responses, t.txOut)) (step (facing start (.write 0x000 1 0x10000080)))
      = some ([.busError 0x000], []) := by decide
/-- A misaligned read. -/
theorem test_bus_misaligned :
    after (·.responses) (step (facing start (.read 0x002 4))) = some [.busError 0x002] := by decide
/-- A write to a read-only register is ignored. -/
theorem test_bus_readOnly :
    after (·.readWord 0x00C) (step (facing start (.write 0x00C 4 5))) = some 0x4B430001 := by decide
/-- CTRL keeps its two bits. -/
theorem test_bus_ctrl :
    after (·.readWord 0x008) (step (facing start (.write 0x008 4 0xFFFFFFFF))) = some 0x00000003 := by decide
/-- PARAM, an unmapped word and the last window word. -/
theorem test_bus_reads :
    [0x010, 0x04C, 0x3FC, 0xC00, 0xFFC, 0xBFC].map start.readWord = [0x20, 0, 0, 0, 0, 0] := by decide
/-- Section 2.6: an illegal word sets ERR_ILLEGAL, and the write completes. -/
theorem test_bus_illegal :
    after (fun t => (t.readWord 0x004, t.responses)) (step (facing start (.write 0x000 4 0x21FF0040)))
      = some (0x00000100, [.completed]) := by decide
/-- V1 finished, CTRL = 1: irq is 1, and acknowledging clears it. -/
theorem test_irq_acknowledge :
    ({ v1Done with ctrlRxie := true } : State).irq = true
      ∧ after (fun t => (t.irq, t.readWord 0x004))
          (step (facing { v1Done with ctrlRxie := true } (.write 0x004 4 0x00010000))) = some (false, 0x00000003) := by
  decide
/-- R146, R147: coming out of reset clears the registers and keeps the ports. -/
theorem test_reset :
    after (fun t => (t.readWord 0x014, t.txOut, t.inReset))
      (step { start with crcAcc := 5, txOut := [0x80], inReset := true, pending := [.resetLevel false] })
      = some (0, [0x80], false) := by decide

/-! ### The host's two functions and the textual syntax -/

/-- The table's row TX_BODY with the operand 0x1B. -/
theorem test_decodeTableWord : decodeTableWord 32 0x1100001B = some (.txBody 0x1B) := by decide
/-- A word placed after reset is the command that the next step runs. -/
theorem test_withFetchWord :
    after (·.txOut) (step (start.withFetchWord 32 0x1100001B)) = some [0x1B, 0xE4] := by decide
/-- R73: the rule's two examples. -/
theorem test_assemble_command :
    assembleLine "CRC_BYTE 0x3F" = some [.write 0x000 4 0x0200003F]
      ∧ assembleLine "BUILD_REQ 0x03FF ; a comment" = some [.write 0x000 4 0x310003FF] := by decide
/-- R74, section 3: the first lines of P2's expansion, and STUFF of one byte. -/
theorem test_assemble_pseudo :
    assembleLine "DESTUFF 0x80, 0x3F" = some [.write 0x000 4 0x18000080, .write 0x000 4 0x1800003F,
        .write 0x000 4 0x19000000]
      ∧ assembleLine "STUFF 0x80" = none := by decide
/-- R75: accesses by address and by name. -/
theorem test_assemble_access :
    assembleLine "WR STATUS, 0x0001_0000" = some [.write 0x004 4 0x00010000]
      ∧ assembleLine "RD 0x818 -> 0x1B" = some [.read 0x818 4] := by decide

/-! ### Witnesses: states and operands that meet the hypotheses of the statements, clause by clause -/

/-- `s` coming out of reset. -/
def leaving (s : State) : State := { s with inReset := true, pending := [.resetLevel false] }

/-- `s` with the command word `w` to come. -/
def commanded (s : State) (w : Word) : State := facing s (commandAccess w)

theorem faces_commanded (w : Word) : (commanded start w).Faces (commandAccess w) [] := ⟨rfl, rfl⟩

/-- The state whose next access is the command `i`. -/
theorem facesCommand_of_decode {w : Word} {i : Instr} (h : decode w = .ok i) : (commanded start w).FacesCommand i :=
  ⟨w, [], faces_commanded w, h⟩

/-- The word of zeros but for its last bit. -/
theorem witness_NopLeavesTheStateUnchanged :
    (0x00000001 : Word).extractLsb' 24 8 = 0x00#8 ∧ (0x00000001 : Word) ≠ 0 := by decide

theorem witness_EncodeWritesBackEveryAcceptedWord : decode 0x3100FFFF = .ok (.buildReq 0xFFFF) := by decide

theorem witness_IllegalCommandSetsOnlyErrIllegal :
    (commanded start 0x40000000).Faces (commandAccess 0x40000000) [] ∧ legal 0x40000000 = false :=
  ⟨faces_commanded _, by decide⟩

theorem witness_StepRunsTheDecodedCommand :
    (commanded start 0x0200003F).Faces (commandAccess 0x0200003F) [] ∧ decode 0x0200003F = .ok (.crcByte 0x3F) :=
  ⟨faces_commanded _, by decide⟩

/-- Each clause: the five reserved bytes and 0x05, which stands next to one. -/
theorem witness_TxBodyEmitsEscaped :
    [0x06, 0x0D, 0x1B, 0x40, 0x80, 0x05].map enc
        = [[0x1B, 0xF9], [0x1B, 0xF2], [0x1B, 0xE4], [0x1B, 0xBF], [0x1B, 0x7F], [0x05]]
      ∧ (0x05 : Byte) ∉ [0x06#8, 0x0D#8, 0x1B#8, 0x40#8, 0x80#8] := by decide

/-- A pending marker; none, and a marker comes; none, and another byte comes. -/
theorem witness_DecoderCommandsFollowTheScan :
    ({ start with dsEsc := true } : State).dsEsc = true ∧ (start.dsEsc = false ∧ (0x1B : Byte) = 0x1B)
      ∧ (start.dsEsc = false ∧ (0x1C : Byte) ≠ 0x1B) := by decide

/-- The six clauses: IDLE, and DONE; SYNC and another byte; SYNC and the start token; COLLECT and the end token, at
a buffer that it fills; COLLECT and another byte that fills the buffer; COLLECT and one that leaves a place. -/
theorem witness_RxByteFollowsThePhase :
    let full := collecting start (0x40 :: List.replicate 30 0x55)
    let room := collecting start (0x40 :: List.replicate 29 0x55)
    (start.rxState = .idle ∧ v1Done.rxState = .done)
      ∧ (({ start with rxState := .sync } : State).rxState = .sync ∧ (0x41 : Byte) ≠ 0x40)
      ∧ (({ start with rxState := .sync } : State).rxState = .sync ∧ (0x40 : Byte) = 0x40)
      ∧ (full.rxState = .collect ∧ (0x0D : Byte) = 0x0D)
      ∧ (full.rxState = .collect ∧ (0x0E : Byte) ≠ 0x0D ∧ full.raw.length + 1 = full.params.rxMax)
      ∧ (room.rxState = .collect ∧ (0x0E : Byte) ≠ 0x0D ∧ room.raw.length + 1 ≠ room.params.rxMax) := by decide

theorem witness_RxTimeoutEndsCollection :
    start.rxState = .idle ∧ v1Done.rxState = .done ∧ ({ start with rxState := .sync } : State).rxState = .sync
      ∧ v1Before.rxState = .collect := by decide

/-- A full buffer; and frames of nine and of eight bytes, where the two clauses on the length meet. -/
theorem witness_FinishWritesEveryParseResult :
    (collecting start (0x40 :: List.replicate 31 0x55)).raw.length ≤ start.params.rxMax
      ∧ (9 ≤ (destuff (0x40 :: List.replicate 8 0x55)).1.length)
      ∧ ((destuff (0x40 :: List.replicate 7 0x55)).1.length < 9) := by decide

/-- The shortest frame with fields, and the same with another checksum field and another last byte. -/
theorem witness_ChecksumAndEndTokenNeverDecideTheCode :
    (destuff [0x40, 0x3F, 0x10, 0x03, 0xFF, 0x01, 0x00, 0x01, 0x0D]).1
        = [0x40, 0x3F, 0x10, 0x03, 0xFF, 0x01] ++ [0x00, 0x01, 0x0D]
      ∧ (destuff [0x40, 0x3F, 0x10, 0x03, 0xFF, 0x01, 0x02, 0x03, 0x04]).1
        = [0x40, 0x3F, 0x10, 0x03, 0xFF, 0x01] ++ [0x02, 0x03, 0x04]
      ∧ 6 ≤ [0x40, 0x3F, 0x10, 0x03, 0xFF, (0x01 : Byte)].length := by decide

/-- Both directions of the equivalence: ends that are no marker, and each end a marker. -/
theorem witness_DestuffUndoesStuffUnlessAnEndIsTheMarker :
    destuff (stuff 0x40 [0x1B] 0x0D) = ([0x40, 0x1B, 0x0D], false)
      ∧ destuff (stuff 0x1B [] 0x00) ≠ ([0x1B, 0x00], false) ∧ destuff (stuff 0x00 [] 0x1B) ≠ ([0x00, 0x1B], false) := by
  decide

/-- A marker in an interior; and in a frame's wire form the start token, the end token and a token's position. -/
theorem witness_WireFrameKeepsTokensAtItsEnds :
    ([0x0D#8].flatMap enc)[0]? = some 0x1B
      ∧ ((0x80 : Byte) = 0x80 ∧ (stuff 0x80 [0x40] 0x0D)[0]? = some 0x80)
      ∧ ((0x40 : Byte) = 0x40 ∧ (stuff 0x40 [0x0D] 0x0D)[3]? = some 0x0D) := by decide

theorem witness_DestuffPseudoComputesDestuff : start.dsEsc = false := by decide

/-- A command of each of the three units, with its next state: the encoder's (first and third clause), the decoder's
(second and third), the frame reader's (first and second); and BUILD_REQ completes. -/
theorem witness_EncoderAndDecoderShareNoState :
    (exec (.txFirst 0x80) start = .next { start with txOut := [0x80], txOpen := true }
        ∧ ∃ b, Instr.txFirst 0x80 = .txFirst b)
      ∧ (exec (.dsByte 0x41) start = .next { start with dsOut := [0x41], dsLast := 0x41, dsValid := true }
        ∧ ∃ b, Instr.dsByte 0x41 = .dsByte b)
      ∧ (exec (.rxByte 0x40) { start with rxState := .sync } = .next (collecting start [0x40])
        ∧ ∃ b, Instr.rxByte 0x40 = .rxByte b)
      ∧ exec .rxArm start = .next { start with rxState := .sync }
      ∧ exec .rxTimeout start = .next start
      ∧ ∃ t, exec (.buildReq 0x03FF) start = .next t :=
  ⟨⟨rfl, _, rfl⟩, ⟨rfl, _, rfl⟩, ⟨rfl, _, rfl⟩, rfl, rfl, _, rfl⟩

/-- A decoder with no marker pending; and a reader in SYNC. -/
theorem witness_RequestSurvivesItsRoundTrip :
    start.dsEsc = false ∧ ({ start with rxState := .sync } : State).rxState = .sync := by decide

/-- The last valid unit code; the response fills the buffer exactly, with RX_MAX = 10 and no payload. -/
theorem witness_ReaderAcceptsEveryWellFormedResponse :
    let inner : List Byte := [0x3F, 0x10, 0x00, 0x00, 0x40] ++ []
    let c := crc16 inner
    (0x40 : Byte).toNat ≤ 64 ∧ hi (State.resetWith ⟨1, none⟩).expVarid = 0x00
      ∧ (stuff 0x40 (inner ++ [hi c, lo c]) 0x0D).length ≤ (State.resetWith ⟨1, none⟩).params.rxMax := by decide

theorem witness_MarkerAtTheEndOfARawFrame :
    (collecting start [0x40, 0x3F, 0x1B]).rxState = .collect ∧ (destuff [0x40, 0x3F]).2 = false
      ∧ (collecting start [0x40, 0x3F, 0x1B]).raw = [0x40, 0x3F] ++ [0x1B] := by decide

/-- A command that is not RX_ARM, in DONE and in COLLECT, outside reset. -/
theorem not_rxArm {s : State} {b : Byte} (hr : s.inReset = false) (w : Word) (hd : decode w = .ok (.rxByte b)) :
    ¬ (commanded s w).FacesCommand .rxArm ∧ ¬ (commanded s w).LeavesReset := by
  refine ⟨?_, ?_⟩
  · rintro ⟨w', rest, ⟨-, hp⟩, hd'⟩
    have : w = w' := by
      simp only [commanded, facing, commandAccess, List.cons.injEq, HostEvent.access.injEq, Access.write.injEq] at hp
      exact hp.1.2.2
    subst this
    simp [hd] at hd'
  · rintro ⟨h, -⟩
    rw [show (commanded s w).inReset = s.inReset from rfl, hr] at h
    exact absurd h (by decide)

/-- In DONE a byte is dropped; in COLLECT the end token changes the results. -/
theorem witness_ParseResultsPersist :
    (∃ t, step (commanded v1Done 0x2100000D) = .next t ∧ (commanded v1Done 0x2100000D).rxState = .done
      ∧ ¬ (commanded v1Done 0x2100000D).FacesCommand .rxArm ∧ ¬ (commanded v1Done 0x2100000D).LeavesReset)
    ∧ ∃ t, step (commanded v1Before 0x2100000D) = .next t ∧ t.parsed ≠ (commanded v1Before 0x2100000D).parsed
      ∧ ¬ (commanded v1Before 0x2100000D).FacesCommand .rxArm ∧ ¬ (commanded v1Before 0x2100000D).LeavesReset :=
  ⟨⟨_, rfl, rfl, not_rxArm (b := 0x0D) rfl _ (by decide)⟩,
    ⟨_, rfl, by decide, not_rxArm (b := 0x0D) rfl _ (by decide)⟩⟩

/-- The reader before the end token meets the invariant. -/
theorem inv_v1Before (w : Word) : (commanded v1Before w).Inv :=
  ⟨⟨rfl, (by decide : frameEnd ∉ v1Before.raw), (by decide : v1Before.raw.length < v1Before.params.rxMax), rfl, rfl⟩,
    fun h => absurd h (by decide : ¬ v1Before.dsValid = true)⟩

theorem witness_EveryStepKeepsTheInvariant :
    (commanded v1Before 0x2100000D).Inv ∧ ∃ t, step (commanded v1Before 0x2100000D) = .next t :=
  ⟨inv_v1Before _, _, rfl⟩

theorem witness_InvariantBoundsBuffersAndResults : v1Done.Inv :=
  ⟨⟨rfl, ⟨rfl, by decide, by decide, by decide⟩, 0x03FF, rfl⟩, fun h => absurd h (by decide)⟩

theorem witness_StepHasANextStateUnlessAccessedInReset :
    (commanded start 0).SafeStep
      ∧ ({ commanded start 0 with inReset := true } : State).inReset = true
      ∧ ({ commanded start 0 with inReset := true } : State).pending = .access (commandAccess 0) :: [] :=
  ⟨fun h => absurd h (by decide), rfl, rfl⟩

theorem witness_OnlyCrcCommandsChangeTheAccumulator :
    ∃ t, step (commanded start 0x02000001) = .next t ∧ t.crcAcc ≠ (commanded start 0x02000001).crcAcc :=
  ⟨_, rfl, by decide⟩

theorem witness_OtherCommandsDoNotReadTheAccumulator :
    (∀ b, Instr.nop ≠ .crcByte b) ∧ exec .nop start = .next start :=
  ⟨nofun, rfl⟩

/-- TX_FIRST opens a frame; TX_LAST closes one. -/
theorem witness_TxOpenTracksTheFrame :
    (∃ t, step (commanded start 0x10000080) = .next t ∧ (commanded start 0x10000080).txOpen = false ∧ t.txOpen = true)
      ∧ (∃ t, step (commanded { start with txOpen := true } 0x1200000D) = .next t
        ∧ (commanded { start with txOpen := true } 0x1200000D).txOpen = true ∧ t.txOpen = false)
      ∧ ∃ t, exec (.txBody 0x0D) start = .next t :=
  ⟨⟨_, rfl, rfl, rfl⟩, ⟨_, rfl, rfl, rfl⟩, _, rfl⟩

theorem witness_ThreeWritersOfTheExpectedId :
    ∃ t, step (facing start (.write 0x01C 4 5)) = .next t ∧ t.expVarid ≠ (facing start (.write 0x01C 4 5)).expVarid :=
  ⟨_, rfl, by decide⟩

theorem witness_OnlyReaderCommandsChangeRaw :
    ∃ t, step (commanded v1Before 0x2100000D) = .next t ∧ t.raw ≠ (commanded v1Before 0x2100000D).raw :=
  ⟨_, rfl, by decide⟩

theorem witness_OutputPortsOnlyGrow : ∃ t, step (commanded start 0x10000080) = .next t := ⟨_, rfl⟩

theorem witness_ParametersNeverChange : ∃ t, step (leaving start) = .next t := ⟨_, rfl⟩

/-- Each sticky bit falls by a write of all ones to STATUS. -/
theorem witness_StickyBitsFallOnlyByW1cOrReset :
    let s := facing { start with
      errIllegal := true, errTxseq := true, errRxdrop := true, errDstrunc := true, evtRxdone := true }
      (.write 0x004 4 0xFFFFFFFF)
    ∃ t, step s = .next t ∧ ¬ s.LeavesReset ∧ ∀ k ∈ [8, 9, 10, 11, 16],
      (s.readRegister .status).getLsbD k = true ∧ (t.readRegister .status).getLsbD k = false :=
  ⟨_, rfl, fun h => absurd h.1 (by decide), by decide⟩

/-- A narrow read, and a misaligned write. -/
theorem witness_BadAccessIsABusErrorWithNoEffect :
    ((facing start (.read 0x004 2)).Faces (.read 0x004 2) [] ∧ (2 ≠ 4 ∨ (0x004 : RegAddr).toNat % 4 ≠ 0))
      ∧ ((facing start (.write 0x001 4 5)).Faces (.write 0x001 4 5) [] ∧ (4 ≠ 4 ∨ (0x001 : RegAddr).toNat % 4 ≠ 0)) :=
  ⟨⟨⟨rfl, rfl⟩, by decide⟩, ⟨rfl, rfl⟩, by decide⟩

/-- The last word of the space; and nothing to do. -/
theorem witness_ReadsChangeNothing :
    ((facing start (.read 0xFFC 4)).Faces (.read 0xFFC 4) [] ∧ (0xFFC : RegAddr).toNat % 4 = 0)
      ∧ start.pending = [] :=
  ⟨⟨⟨rfl, rfl⟩, by decide⟩, rfl⟩

theorem witness_EveryRegisterIsReadAtItsOffset : offsetOf (.plain 0xFF) = offsetOf (.plain 0xFF) := rfl

theorem witness_RegisterValues : v1Done.raw.length < 512 ∧ v1Done.plain.length < 512 := by decide

/-- The first and the last word of a window. -/
theorem witness_WindowsShowTheBuffers : 0 ≤ 255 ∧ 255 ≤ 255 := by decide

/-- A read of CMD and of the first and the last address of each of the two holes; and a write to a read-only
register. -/
theorem witness_UnmappedAndReadOnlyWordsIgnoreWrites :
    [0x000#12, 0x04C#12, 0x3FC#12, 0xC00#12, 0xFFC#12].Forall (fun addr =>
        (facing start (.read addr 4)).Faces (.read addr 4) [] ∧ addr.toNat % 4 = 0
          ∧ (addr = 0x000 ∨ 0x048 < addr.toNat ∧ addr.toNat < 0x400 ∨ 0xC00 ≤ addr.toNat))
      ∧ (facing start (.write 0x00C 4 5)).Faces (.write 0x00C 4 5) [] ∧ (0x00C : RegAddr).toNat % 4 = 0
      ∧ (0x00C : RegAddr) ∉ [0x000#12, 0x004#12, 0x008#12, 0x01C#12] := by
  refine ⟨?_, ⟨rfl, rfl⟩, by decide, by decide⟩
  simp only [List.Forall]
  exact ⟨⟨⟨rfl, rfl⟩, by decide, by decide⟩, ⟨⟨rfl, rfl⟩, by decide, by decide⟩, ⟨⟨rfl, rfl⟩, by decide, by decide⟩,
    ⟨⟨rfl, rfl⟩, by decide, by decide⟩, ⟨rfl, rfl⟩, by decide, by decide⟩

theorem witness_RegisterWrites (v : Word) :
    (facing start (.write 0x004 4 v)).Faces (.write 0x004 4 v) []
      ∧ (facing start (.write 0x008 4 v)).Faces (.write 0x008 4 v) []
      ∧ (facing start (.write 0x01C 4 v)).Faces (.write 0x01C 4 v) [] :=
  ⟨⟨rfl, rfl⟩, ⟨rfl, rfl⟩, rfl, rfl⟩

/-- irq high; its acknowledgement; and the masking write. -/
theorem witness_IrqIsTheLevelOfTheEnabledBits :
    let s : State := { v1Done with ctrlRxie := true }
    s.irq = true
      ∧ (facing s (.write 0x004 4 (s.readWord 0x004))).Faces (.write 0x004 4 (s.readWord 0x004)) []
      ∧ (facing s (.write 0x008 4 0)).Faces (.write 0x008 4 0) [] :=
  ⟨by decide, ⟨rfl, rfl⟩, rfl, rfl⟩

theorem witness_ReleasingResetKeepsOnlyTheOutputPorts :
    (leaving start).inReset = true ∧ (leaving start).pending = .resetLevel false :: [] := ⟨rfl, rfl⟩

end Sys2Proof.Tests
end

/-! PROOFS. What the scope says of every step and every command (00_scope.md): the command that a step runs, the frame
that all thirteen commands share, the parameters, and what the invariant says of buffers and results. -/

namespace Sys2Proof.Machine

/-! ### The command that a step runs (R12, R72) -/

theorem runCommand_of_decode {w : Word} {i : Instr} (h : decode w = .ok i) (s : State) : runCommand w s = exec i s := by
  simp [runCommand, h]

/-- Settles O6: the access faced is a write to CMD, and `runCommand` executes what its word decodes to. -/
theorem stepRunsTheDecodedCommand : Obligations.StepRunsTheDecodedCommand := by
  intro s w rest i hfaces hdecode
  calc step s = memWrite 0x000 4 w (s.withPending rest) := step_of_faces hfaces
    _ = withResponse .completed (runCommand w (s.withPending rest)) := memWrite_cmd w _
    _ = withResponse .completed (exec i (s.withPending rest)) := by rw [runCommand_of_decode hdecode]

/-! ### The frame that all commands share (R12, R130) -/

/-- CTRL, `err_illegal` and what is not the block's are the same in `s` and in `t`: the fields that no command
writes. -/
structure State.SameHostSide (s t : State) : Prop where
  ctrlRxie   : t.ctrlRxie = s.ctrlRxie
  ctrlErrie  : t.ctrlErrie = s.ctrlErrie
  errIllegal : t.errIllegal = s.errIllegal
  params     : t.params = s.params
  inReset    : t.inReset = s.inReset
  pending    : t.pending = s.pending
  responses  : t.responses = s.responses

theorem State.sameHostSide_refl (s : State) : s.SameHostSide s := by constructor <;> rfl

theorem execDsByte_sameHostSide (b : Byte) (s : State) : ∃ t, execDsByte b s = .next t ∧ s.SameHostSide t := by
  refine ⟨_, rfl, ?_⟩
  by_cases hesc : s.dsEsc = true
  · constructor <;> simp [hesc]
  · by_cases hb : b = esc
    · constructor <;> simp [hesc, hb]
    · constructor <;> simp [hesc, hb]

theorem execRxByte_sameHostSide (b : Byte) (s : State) : ∃ t, execRxByte b s = .next t ∧ s.SameHostSide t := by
  unfold execRxByte
  cases s.rxState with
  | idle | done => exact ⟨_, rfl, by constructor <;> simp⟩
  | sync =>
    refine ⟨_, rfl, ?_⟩
    by_cases hb : b = rspStart
    · constructor <;> simp [hb]
    · simpa [hb] using s.sameHostSide_refl
  | collect => exact ⟨_, rfl, by constructor <;> simp⟩

theorem execRxTimeout_sameHostSide (s : State) : ∃ t, execRxTimeout s = .next t ∧ s.SameHostSide t := by
  unfold execRxTimeout
  cases s.rxState with
  | idle | done => exact ⟨s, rfl, s.sameHostSide_refl⟩
  | sync | collect => exact ⟨_, rfl, by constructor <;> simp⟩

/-- Every command has a next state, with the same host's side. -/
theorem exec_completes (i : Instr) (s : State) : ∃ t, exec i s = .next t ∧ s.SameHostSide t := by
  cases i with
  | nop => exact ⟨s, rfl, s.sameHostSide_refl⟩
  | crcInit | crcByte b | rxArm | setExpid v => exact ⟨_, rfl, by constructor <;> rfl⟩
  | txFirst b | txBody b | txLast b | buildReq v | dsEnd => exact ⟨_, rfl, by constructor <;> simp⟩
  | dsByte b => exact execDsByte_sameHostSide b s
  | rxByte b => exact execRxByte_sameHostSide b s
  | rxTimeout => exact execRxTimeout_sameHostSide s

theorem exec_sameHostSide {i : Instr} {s t : State} (h : exec i s = .next t) : s.SameHostSide t := by
  obtain ⟨u, hu, hsame⟩ := exec_completes i s
  obtain rfl : u = t := by simpa [hu] using h
  exact hsame

/-- Settles O40: no command refuses, and none writes the host's side. -/
theorem everyCommandCompletes : Obligations.EveryCommandCompletes := by
  intro i s
  obtain ⟨t, ht, hsame⟩ := exec_completes i s
  exact ⟨t, ht, hsame.ctrlRxie, hsame.ctrlErrie, hsame.errIllegal, hsame.params, hsame.inReset, hsame.pending,
    hsame.responses⟩

/-! ### The parameters (R5, R50) -/

@[simp] theorem State.resetLevel_params (s : State) (asserted : Bool) : (s.resetLevel asserted).params = s.params := by
  unfold State.resetLevel
  split
  · rfl
  · split <;> rfl

/-- Settles O47, by what a step can do: a command keeps the host's side, and no other case writes the parameters. -/
theorem parametersNeverChange : Obligations.ParametersNeverChange := by
  intro s t h
  cases step_cases h with
  | idle _ ht => rw [ht]
  | command i w rest _ _ u hu ht => simpa [ht] using (exec_sameHostSide hu).params
  | reset _ _ _ ht | read _ _ _ _ ht | badWrite _ _ _ _ _ _ ht | illegal _ _ _ _ _ ht | write _ _ _ _ _ _ ht =>
    simp [ht]

theorem rxMax_bounds (p : Params) : 9 ≤ p.rxMax ∧ p.rxMax ≤ 256 := by
  have := p.rxMaxOver9.isLt
  unfold Params.rxMax
  omega

/-! ### Buffers and results under the invariant (R36, R112, R114, R121) -/

/-- Only the first gate answers RX_FAIL: the plain frame is empty (R121). -/
theorem resultCode_eq_rxFail_iff (n : Nat) (f : RxFlags) : resultCode n f = .rxFail ↔ n = 0 := by
  unfold resultCode
  split_ifs <;> simp [*]

/-- A raw frame that begins with the start token has a plain byte: the start token is no marker. -/
theorem destuff_ne_nil_of_head {raw : List Byte} (h : raw.head? = some rspStart) : (destuff raw).1 ≠ [] := by
  obtain ⟨rest, rfl⟩ := List.head?_eq_some_iff.1 h
  simp [destuff_plain (show rspStart ≠ esc by decide)]

/-- The sentinel has six bytes, and a frame with every field has nine at least. -/
theorem not_sentFlag_and_fvFlag (k : Option (Vector Byte 6)) (p : List Byte) :
    ¬ (sentFlag k p = true ∧ fvFlag p = true) := by
  rintro ⟨hsent, hfv⟩
  have h6 := length_of_sentFlag hsent
  have h9 := (fvFlag_iff p).1 hfv
  omega

theorem endedBy_length_le {m : Nat} {raw : List Byte} {e : RxEnd} (h : EndedBy m raw e) : raw.length ≤ m := by
  cases e with
  | none => exact h.elim
  | term =>
    obtain ⟨-, -, -, hlen⟩ := h
    exact hlen
  | tmoSync => simp [show raw = [] from h]
  | full | tmoCollect =>
    obtain ⟨-, -, hlen⟩ := h
    exact hlen.le

theorem endedBy_ne_none {m : Nat} {raw : List Byte} {e : RxEnd} (h : EndedBy m raw e) : e ≠ .none := by
  rintro rfl
  exact h

/-- Only a timeout in SYNC ends a frame that has no plain byte. -/
theorem endedBy_destuff_eq_nil_iff {m : Nat} {raw : List Byte} {e : RxEnd} (h : EndedBy m raw e) :
    (destuff raw).1 = [] ↔ e = .tmoSync := by
  cases e with
  | none => exact h.elim
  | tmoSync => simp [show raw = [] from h]
  | term | full | tmoCollect => simpa using destuff_ne_nil_of_head h.1

/-- The invariant in two cases: no frame has ended and there are no results, or a frame has been parsed. -/
theorem State.ReaderInv.unparsed_or_parsed {s : State} (h : s.ReaderInv) :
    (s.rxState ≠ .done ∧ s.raw.length ≤ s.params.rxMax ∧ s.plain = [] ∧ s.parsed = .clear)
      ∨ (s.rxState = .done ∧ s.Parsed) := by
  unfold State.ReaderInv at h
  cases hphase : s.rxState with
  | idle | sync =>
    rw [hphase] at h
    obtain ⟨hraw, hplain, hparsed⟩ := h
    exact .inl ⟨by simp, by simp [hraw], hplain, hparsed⟩
  | collect =>
    rw [hphase] at h
    obtain ⟨-, -, hlen, hplain, hparsed⟩ := h
    exact .inl ⟨by simp, hlen.le, hplain, hparsed⟩
  | done =>
    rw [hphase] at h
    exact .inr ⟨rfl, h⟩

theorem State.Parsed.rxCode_eq_rxFail_iff {s : State} (h : s.Parsed) :
    s.parsed.rxCode = .rxFail ↔ s.parsed.rxEnd = .tmoSync := by
  obtain ⟨-, hended, v, hparse⟩ := h
  obtain ⟨-, -, -, -, -, hcode⟩ := parseFrame_base s.params v s.parsed.rxEnd s.raw
  rw [← endedBy_destuff_eq_nil_iff hended, ← List.length_eq_zero_iff, ← resultCode_eq_rxFail_iff, ← hcode, ← hparse]

theorem State.Parsed.not_sent_and_fv {s : State} (h : s.Parsed) :
    ¬ (s.parsed.rxFlags.sent = true ∧ s.parsed.rxFlags.fv = true) := by
  obtain ⟨-, -, v, hparse⟩ := h
  obtain ⟨-, -, hsent, hfv, -, -⟩ := parseFrame_base s.params v s.parsed.rxEnd s.raw
  rw [hparse, hsent, hfv]
  exact not_sentFlag_and_fvFlag _ _

/-- Settles O38: before a frame has ended the results are clear; after that they are the parse of the raw bytes. -/
theorem invariantBoundsBuffersAndResults : Obligations.InvariantBoundsBuffersAndResults := by
  rintro s ⟨hreader, -⟩
  obtain ⟨hmin, hmax⟩ := rxMax_bounds s.params
  rcases hreader.unparsed_or_parsed with ⟨hphase, hlen, hplain, hparsed⟩ | ⟨hphase, hp⟩
  · refine ⟨hlen, by simp [hplain], hmin, hmax, ?_⟩
    simp [hparsed, hphase, ParseResults.clear, RxFlags.clear]
  · have ⟨hplain, hended, _⟩ := hp
    refine ⟨endedBy_length_le hended, ?_, hmin, hmax, hp.rxCode_eq_rxFail_iff, ?_, hp.not_sent_and_fv⟩
    · rw [hplain]
      exact destuff_length_le s.raw
    · simp [endedBy_ne_none hended, hphase]

end Sys2Proof.Machine

/-! PROOFS. The components of the state (10_state.md): who writes each of them, the invariant, and what the registers
show of them. -/

namespace Sys2Proof.Machine

/-! ### What a command can do (R72, R78 to R111) -/

/-- Every outcome of every command, from the state `s`: one constructor per command, or per branch of its rule. -/
inductive ExecCase (s : State) : Instr → State → Prop where
  | nop : ExecCase s .nop s
  | crcInit : ExecCase s .crcInit { s with crcAcc := 0 }
  | crcByte (b : Byte) : ExecCase s (.crcByte b) { s with crcAcc := crcStep s.crcAcc b }
  | txFirst (b : Byte) : ExecCase s (.txFirst b) { (s.setErrTxseqIf s.txOpen).emitTx [b] with txOpen := true }
  | txBody (b : Byte) : ExecCase s (.txBody b) ((s.setErrTxseqIf (!s.txOpen)).emitTx (enc b))
  | txLast (b : Byte) : ExecCase s (.txLast b) { (s.setErrTxseqIf (!s.txOpen)).emitTx [b] with txOpen := false }
  | dsEscaped (b : Byte) (hesc : s.dsEsc = true) :
      ExecCase s (.dsByte b) { s.decoderEmit (b ^^^ 0xFF) with dsEsc := false }
  | dsMarker (hesc : s.dsEsc = false) : ExecCase s (.dsByte esc) { s with dsEsc := true, dsValid := false }
  | dsPlain (b : Byte) (hesc : s.dsEsc = false) (hb : b ≠ esc) : ExecCase s (.dsByte b) (s.decoderEmit b)
  | dsEnd : ExecCase s .dsEnd { s.setErrDstruncIf s.dsEsc with dsEsc := false, dsValid := false }
  | rxArm : ExecCase s .rxArm { s with rxState := .sync, raw := [], plain := [], parsed := .clear }
  | rxDrop (b : Byte) (hphase : s.rxState = .idle ∨ s.rxState = .done) : ExecCase s (.rxByte b) s.setErrRxdrop
  | rxSkip (b : Byte) (hphase : s.rxState = .sync) (hb : b ≠ rspStart) : ExecCase s (.rxByte b) s
  | rxStart (hphase : s.rxState = .sync) :
      ExecCase s (.rxByte rspStart) { s with raw := [rspStart], rxState := .collect }
  | rxTerm (hphase : s.rxState = .collect) :
      ExecCase s (.rxByte frameEnd) (({ s with raw := s.raw ++ [frameEnd] } : State).finish .term)
  | rxFull (b : Byte) (hphase : s.rxState = .collect) (hb : b ≠ frameEnd) (hlen : s.raw.length + 1 = s.params.rxMax) :
      ExecCase s (.rxByte b) (({ s with raw := s.raw ++ [b] } : State).finish .full)
  | rxStore (b : Byte) (hphase : s.rxState = .collect) (hb : b ≠ frameEnd)
      (hlen : s.raw.length + 1 ≠ s.params.rxMax) : ExecCase s (.rxByte b) { s with raw := s.raw ++ [b] }
  | timeoutIgnored (hphase : s.rxState = .idle ∨ s.rxState = .done) : ExecCase s .rxTimeout s
  | timeoutSync (hphase : s.rxState = .sync) : ExecCase s .rxTimeout (s.finish .tmoSync)
  | timeoutCollect (hphase : s.rxState = .collect) : ExecCase s .rxTimeout (s.finish .tmoCollect)
  | setExpid (v : Half) : ExecCase s (.setExpid v) { s with expVarid := v }
  | buildReq (v : Half) :
      ExecCase s (.buildReq v) { (s.setErrTxseqIf s.txOpen).emitTx (reqWire v) with
        reqCrc := be16 (byteAt (reqFrame v) 6) (byteAt (reqFrame v) 7)
        expVarid := v
        txOpen := false }

theorem execDsByte_cases (b : Byte) (s : State) : ∃ t, execDsByte b s = .next t ∧ ExecCase s (.dsByte b) t := by
  refine ⟨_, rfl, ?_⟩
  by_cases hesc : s.dsEsc = true
  · simpa [hesc] using ExecCase.dsEscaped b hesc
  · by_cases hb : b = esc
    · subst hb
      simpa [hesc] using ExecCase.dsMarker (by simpa using hesc)
    · simpa [hesc, hb] using ExecCase.dsPlain b (by simpa using hesc) hb

theorem execRxByte_cases (b : Byte) (s : State) : ∃ t, execRxByte b s = .next t ∧ ExecCase s (.rxByte b) t := by
  unfold execRxByte
  cases hphase : s.rxState with
  | idle => exact ⟨_, rfl, .rxDrop b (.inl hphase)⟩
  | done => exact ⟨_, rfl, .rxDrop b (.inr hphase)⟩
  | sync =>
    refine ⟨_, rfl, ?_⟩
    by_cases hb : b = rspStart
    · subst hb
      simpa using ExecCase.rxStart hphase
    · simpa [hb] using ExecCase.rxSkip b hphase hb
  | collect =>
    refine ⟨_, rfl, ?_⟩
    rcases s.collectByte_cases b with ⟨rfl, h⟩ | ⟨hb, hlen, h⟩ | ⟨hb, hlen, h⟩ <;> rw [h]
    · exact .rxTerm hphase
    · exact .rxFull b hphase hb hlen
    · exact .rxStore b hphase hb hlen

theorem execRxTimeout_cases (s : State) : ∃ t, execRxTimeout s = .next t ∧ ExecCase s .rxTimeout t := by
  unfold execRxTimeout
  cases hphase : s.rxState with
  | idle => exact ⟨_, rfl, .timeoutIgnored (.inl hphase)⟩
  | done => exact ⟨_, rfl, .timeoutIgnored (.inr hphase)⟩
  | sync => exact ⟨_, rfl, .timeoutSync hphase⟩
  | collect => exact ⟨_, rfl, .timeoutCollect hphase⟩

/-- What a command that has a next state did. -/
theorem exec_cases {i : Instr} {s t : State} (h : exec i s = .next t) : ExecCase s i t := by
  have hcase : ∃ u, exec i s = .next u ∧ ExecCase s i u := by
    cases i with
    | nop => exact ⟨_, rfl, .nop⟩
    | crcInit => exact ⟨_, rfl, .crcInit⟩
    | crcByte b => exact ⟨_, rfl, .crcByte b⟩
    | txFirst b => exact ⟨_, rfl, .txFirst b⟩
    | txBody b => exact ⟨_, rfl, .txBody b⟩
    | txLast b => exact ⟨_, rfl, .txLast b⟩
    | dsByte b => exact execDsByte_cases b s
    | dsEnd => exact ⟨_, rfl, .dsEnd⟩
    | rxArm => exact ⟨_, rfl, .rxArm⟩
    | rxByte b => exact execRxByte_cases b s
    | rxTimeout => exact execRxTimeout_cases s
    | setExpid v => exact ⟨_, rfl, .setExpid v⟩
    | buildReq v => exact ⟨_, rfl, .buildReq v⟩
  obtain ⟨u, hu, hcase⟩ := hcase
  obtain rfl : u = t := by simpa [hu] using h
  exact hcase

/-- Each case is what the command does then. -/
theorem ExecCase.exec_eq {i : Instr} {s t : State} (h : ExecCase s i t) : exec i s = .next t := by
  cases h with
  | nop | crcInit | crcByte | txFirst | txBody | txLast | dsEnd | rxArm | setExpid | buildReq => rfl
  | dsEscaped _ hesc | dsMarker hesc => simp [exec, execDsByte, hesc]
  | dsPlain _ hesc hb => simp [exec, execDsByte, hesc, hb]
  | rxDrop _ hphase => rcases hphase with hphase | hphase <;> simp [exec, execRxByte, hphase]
  | rxSkip _ hphase hb => simp [exec, execRxByte, hphase, hb]
  | rxStart hphase => simp [exec, execRxByte, hphase]
  | rxTerm hphase => simp [exec, execRxByte, hphase, State.collectByte]
  | rxFull _ hphase hb hlen | rxStore _ hphase hb hlen => simp [exec, execRxByte, hphase, State.collectByte, hb, hlen]
  | timeoutIgnored hphase => rcases hphase with hphase | hphase <;> simp [exec, execRxTimeout, hphase]
  | timeoutSync hphase | timeoutCollect hphase => simp [exec, execRxTimeout, hphase]

/-! ### What a step can do, a command taken by its cases (R12) -/

/-- The four kinds of step that the components of R14 tell apart. A `quiet` one is every other: an idle step, a read, a
refused or an illegal access, a reset level that releases nothing; of the components it can set `err_illegal` at most. -/
inductive StepEffect (s t : State) : Prop where
  | command (i : Instr) (rest : List HostEvent) (u : State) (hface : s.FacesCommand i)
      (hexec : exec i (s.withPending rest) = .next u) (ht : t = u.respond .completed)
  | write (addr : RegAddr) (v : Word) (rest : List HostEvent) (hface : s.Faces (.write addr 4 v) rest)
      (ht : t = ((s.withPending rest).writeRegister (registerAt addr) v).respond .completed)
  | release (rest : List HostEvent) (hleaves : s.LeavesReset)
      (ht : t = { State.resetWith s.params with
        txOut := s.txOut, dsOut := s.dsOut, pending := rest, responses := s.responses })
  | quiet (asserted illegal : Bool) (rest : List HostEvent) (rs : List Response)
      (ht : t = { s with
        errIllegal := s.errIllegal || illegal, inReset := asserted, pending := rest, responses := s.responses ++ rs })

theorem step_effect {s t : State} (h : step s = .next t) : StepEffect s t := by
  cases step_cases h with
  | idle _ ht => exact .quiet s.inReset false s.pending [] (by simp [ht])
  | reset asserted rest hpending ht =>
    rcases s.resetLevel_cases rest asserted hpending with ⟨level, hkeep⟩ | ⟨hleaves, hrelease⟩
    · exact .quiet level false rest [] (by rw [ht, hkeep]; simp [State.withPending])
    · exact .release rest hleaves (by rw [ht, hrelease])
  | read addr n rest _ ht =>
    exact .quiet s.inReset false rest [s.memRead addr n] (by simp [ht, State.respond, State.withPending])
  | badWrite addr n v rest _ _ ht =>
    exact .quiet s.inReset false rest [.busError addr] (by simp [ht, State.respond, State.withPending])
  | illegal w rest _ _ _ ht =>
    exact .quiet s.inReset true rest [.completed] (by simp [ht, State.respond, State.withPending, State.setErrIllegal])
  | command i w rest hface hdecode u hexec ht => exact .command i rest u ⟨w, rest, hface, hdecode⟩ hexec ht
  | write addr v rest hface _ _ ht => exact .write addr v rest hface ht

/-! ### The invariant (R17, R24 to R26, R112, R113) -/

theorem State.ReaderInv.cleared {s : State} (h : s.ReaderInv) (hphase : s.rxState = .sync) : s.Cleared := by
  rwa [State.ReaderInv, hphase] at h

theorem State.ReaderInv.collecting {s : State} (h : s.ReaderInv) (hphase : s.rxState = .collect) : s.Collecting := by
  rwa [State.ReaderInv, hphase] at h

/-- A collection that ended as the raw bytes allow leaves a parsed frame (R113). -/
theorem State.finish_parsed {s : State} {e : RxEnd} (h : EndedBy s.params.rxMax s.raw e) : (s.finish e).Parsed := by
  obtain ⟨hend, -⟩ := parseFrame_base s.params s.expVarid e s.raw
  exact ⟨by simp, by simpa [hend] using h, s.expVarid, by simp [hend]⟩

/-- A byte appended in COLLECT leaves the start token at the head. -/
theorem State.Collecting.head_append {s : State} (h : s.Collecting) (b : Byte) :
    (s.raw ++ [b]).head? = some rspStart := by
  obtain ⟨hhead, -⟩ := h
  simp [hhead]

/-- A byte that is no end token leaves none in the buffer. -/
theorem State.Collecting.frameEnd_notMem_append {s : State} (h : s.Collecting) {b : Byte} (hb : b ≠ frameEnd) :
    frameEnd ∉ s.raw ++ [b] := by
  obtain ⟨-, hnone, -⟩ := h
  simp [hnone, hb.symm]

/-- The reader's part of the invariant: RX_ARM clears, a start token begins a collection, a stored byte goes on with
it, and each way of ending leaves a parsed frame. The other commands write nothing of the reader's. -/
theorem ExecCase.readerInv {s t : State} {i : Instr} (h : ExecCase s i t) (hinv : s.ReaderInv) : t.ReaderInv := by
  cases h with
  | rxArm => exact ⟨rfl, rfl, rfl⟩
  | rxStart hphase =>
    obtain ⟨-, hplain, hparsed⟩ := hinv.cleared hphase
    have hroom : 1 < s.params.rxMax := by
      have := rxMax_bounds s.params
      omega
    exact ⟨rfl, show frameEnd ∉ [rspStart] by decide, hroom, hplain, hparsed⟩
  | rxTerm hphase =>
    have hcol := hinv.collecting hphase
    have ⟨_, hnone, hlen, _⟩ := hcol
    exact State.finish_parsed ⟨hcol.head_append _, by simp, by simpa using hnone, by simpa using hlen⟩
  | rxFull b hphase hb hfull =>
    have hcol := hinv.collecting hphase
    exact State.finish_parsed ⟨hcol.head_append b, hcol.frameEnd_notMem_append hb, by simpa using hfull⟩
  | rxStore b hphase hb hnotFull =>
    have hcol := hinv.collecting hphase
    have ⟨_, _, hlen, hplain, hparsed⟩ := hcol
    have hroom : (s.raw ++ [b]).length < s.params.rxMax := by
      rw [List.length_append, List.length_singleton]
      omega
    simp only [State.ReaderInv, hphase]
    exact ⟨hcol.head_append b, hcol.frameEnd_notMem_append hb, hroom, hplain, hparsed⟩
  | timeoutSync hphase =>
    obtain ⟨hraw, -⟩ := hinv.cleared hphase
    exact State.finish_parsed hraw
  | timeoutCollect hphase =>
    obtain ⟨hhead, hnone, hlen, -⟩ := hinv.collecting hphase
    exact State.finish_parsed ⟨hhead, hnone, hlen⟩
  | nop | crcInit | crcByte | txFirst | txBody | txLast | dsEscaped | dsMarker | dsPlain | dsEnd | rxDrop | rxSkip
  | timeoutIgnored | setExpid | buildReq => exact hinv

/-- The decoder's part: a byte emitted is the last of the port, and a marker or the end clears `ds_valid`. -/
theorem ExecCase.decoderInv {s t : State} {i : Instr} (h : ExecCase s i t) (hinv : s.DecoderInv) : t.DecoderInv := by
  cases h with
  | dsEscaped b _ => exact fun _ => by simp
  | dsPlain b hesc _ => exact fun _ => by simp [hesc]
  | dsMarker | dsEnd => exact fun hvalid => nomatch hvalid
  | nop | crcInit | crcByte | txFirst | txBody | txLast | rxArm | rxDrop | rxSkip | rxStart | rxTerm | rxFull | rxStore
  | timeoutIgnored | timeoutSync | timeoutCollect | setExpid | buildReq => exact hinv

/-- Nothing is collected in IDLE and no byte is emitted: so after a reset, whatever the ports keep (R147). -/
theorem inv_of_reset (p : Params) (tx ds : List Byte) (pending : List HostEvent) (responses : List Response) :
    ({ State.resetWith p with txOut := tx, dsOut := ds, pending := pending, responses := responses } : State).Inv :=
  ⟨⟨rfl, rfl, rfl⟩, fun hvalid => nomatch hvalid⟩

theorem State.Inv.writeRegister {s : State} (h : s.Inv) (r : Option Register) (v : Word) :
    (s.writeRegister r v).Inv := by
  unfold State.writeRegister
  split <;> exact h

/-- Settles O37, by what a step can do: a command keeps both parts of the invariant, a release of reset sets them up,
and no other step writes what they speak of. -/
theorem everyStepKeepsTheInvariant : Obligations.EveryStepKeepsTheInvariant := by
  intro s t hinv hstep
  cases step_effect hstep with
  | command i rest u _ hexec ht =>
    obtain ⟨hreader, hdecoder⟩ := hinv
    have hu : u.Inv := ⟨(exec_cases hexec).readerInv hreader, (exec_cases hexec).decoderInv hdecoder⟩
    rw [ht]
    exact hu
  | write addr v rest _ ht =>
    have hw : (s.withPending rest).Inv := hinv
    rw [ht]
    exact hw.writeRegister (registerAt addr) v
  | release rest _ ht =>
    rw [ht]
    exact inv_of_reset s.params s.txOut s.dsOut rest s.responses
  | quiet _ _ _ _ ht =>
    rw [ht]
    exact hinv

/-- Settles O36: a power-on reset is one that finds both ports empty. -/
theorem resetMeetsTheInvariant : Obligations.ResetMeetsTheInvariant :=
  ⟨fun p => inv_of_reset p [] [] [] [], inv_of_reset Config.params [] [] [] []⟩

/-! ### What a command emits (R23, R91 to R93, R95, R105) -/

/-- The bytes that a command puts on the request port. -/
def txBytesOf : Instr → List Byte
  | .txFirst b | .txLast b => [b]
  | .txBody b => enc b
  | .buildReq v => reqWire v
  | _ => []

/-- The bytes that a command puts on the decoder's port, by whether a marker is pending. -/
def dsBytesOf (pending : Bool) : Instr → List Byte
  | .dsByte b => if pending then [b ^^^ 0xFF] else if b = esc then [] else [b]
  | _ => []

/-- What a command emits is fixed by the command, and on the decoder's port by `ds_esc` too. -/
theorem ExecCase.emits {s t : State} {i : Instr} (h : ExecCase s i t) :
    t.txOut = s.txOut ++ txBytesOf i ∧ t.dsOut = s.dsOut ++ dsBytesOf s.dsEsc i := by
  cases h with
  | dsEscaped _ hesc | dsMarker hesc => simp [txBytesOf, dsBytesOf, hesc]
  | dsPlain _ hesc hb => simp [txBytesOf, dsBytesOf, hesc, hb]
  | _ => simp [txBytesOf, dsBytesOf]

/-- Settles O46: a command appends to the ports, an access to the record, and a release of reset keeps all three. -/
theorem outputPortsOnlyGrow : Obligations.OutputPortsOnlyGrow := by
  intro s t hstep
  cases step_effect hstep with
  | command i rest u _ hexec ht =>
    obtain ⟨htx, hds⟩ := (exec_cases hexec).emits
    have hresponses := (exec_sameHostSide hexec).responses
    simp [ht, htx, hds, hresponses]
  | write _ _ _ _ ht | release _ _ ht | quiet _ _ _ _ ht => simp [ht]

/-! ### The accumulator (R15) -/

/-- Settles O41: of the commands, only the two of the CRC unit write `crc_acc`. -/
theorem onlyCrcCommandsChangeTheAccumulator : Obligations.OnlyCrcCommandsChangeTheAccumulator := by
  intro s t hstep hne
  cases step_effect hstep with
  | command i rest u hface hexec ht =>
    cases exec_cases hexec with
    | crcInit => exact .inl hface
    | crcByte b => exact .inr (.inl ⟨b, hface⟩)
    | _ => exact absurd (by simp [ht]) hne
  | release _ hleaves _ => exact .inr (.inr hleaves)
  | write _ _ _ _ ht | quiet _ _ _ _ ht => exact absurd (by simp [ht]) hne

/-- The case of a command's rule that applies does not depend on `crc_acc`, and but for CRC_BYTE nothing it writes
does. -/
theorem ExecCase.with_crcAcc {s t : State} {i : Instr} (h : ExecCase s i t) (hne : ∀ b, i ≠ .crcByte b) (a : Half) :
    ExecCase { s with crcAcc := a } i { t with crcAcc := if i = .crcInit then 0 else a } := by
  cases h with
  | crcByte b => exact absurd rfl (hne b)
  | nop => exact .nop
  | crcInit => exact .crcInit
  | txFirst b => exact .txFirst b
  | txBody b => exact .txBody b
  | txLast b => exact .txLast b
  | dsEscaped b hesc => exact .dsEscaped b hesc
  | dsMarker hesc => exact .dsMarker hesc
  | dsPlain b hesc hb => exact .dsPlain b hesc hb
  | dsEnd => exact .dsEnd
  | rxArm => exact .rxArm
  | rxDrop b hphase => exact .rxDrop b hphase
  | rxSkip b hphase hb => exact .rxSkip b hphase hb
  | rxStart hphase => exact .rxStart hphase
  | rxTerm hphase => exact .rxTerm hphase
  | rxFull b hphase hb hlen => exact .rxFull b hphase hb hlen
  | rxStore b hphase hb hlen => exact .rxStore b hphase hb hlen
  | timeoutIgnored hphase => exact .timeoutIgnored hphase
  | timeoutSync hphase => exact .timeoutSync hphase
  | timeoutCollect hphase => exact .timeoutCollect hphase
  | setExpid v => exact .setExpid v
  | buildReq v => exact .buildReq v

/-- Settles O42: the same case applies with another accumulator. -/
theorem otherCommandsDoNotReadTheAccumulator : Obligations.OtherCommandsDoNotReadTheAccumulator :=
  fun _ _ _ a hne hexec => ((exec_cases hexec).with_crcAcc hne a).exec_eq

/-! ### The frame being emitted (R16) -/

/-- Settles O43: four commands write `tx_open`, each always the same value; and what a command emits is fixed by the
command and `ds_esc`. -/
theorem txOpenTracksTheFrame : Obligations.TxOpenTracksTheFrame := by
  refine ⟨fun s t hstep => ?_, fun i s t o hexec => ?_⟩
  · cases step_effect hstep with
    | command i rest u hface hexec ht =>
      cases exec_cases hexec with
      | txFirst b => exact ⟨fun _ _ => ⟨b, hface⟩, fun _ hlow => by simp [ht] at hlow⟩
      | txLast b => exact ⟨fun _ hhigh => by simp [ht] at hhigh, fun _ _ => .inl ⟨b, hface⟩⟩
      | buildReq v => exact ⟨fun _ hhigh => by simp [ht] at hhigh, fun _ _ => .inr (.inl ⟨v, hface⟩)⟩
      | _ => simp +contextual [ht]
    | release _ hleaves ht =>
      exact ⟨fun _ hhigh => by simp [ht, State.resetWith] at hhigh, fun _ _ => .inr (.inr hleaves)⟩
    | write _ _ _ _ ht | quiet _ _ _ _ ht => simp +contextual [ht]
  · obtain ⟨u, hu, -⟩ := exec_completes i { s with txOpen := o }
    obtain ⟨htx, hds⟩ := (exec_cases hexec).emits
    obtain ⟨htx', hds'⟩ := (exec_cases hu).emits
    exact ⟨u, hu, by rw [htx', htx], by rw [hds', hds]⟩

/-! ### The expected id (R22, R34) -/

/-- A register write changes the expected id only when the register is EXP_VARID (R127). -/
theorem State.writeRegister_expVarid_cases (s : State) (r : Option Register) (v : Word) :
    (s.writeRegister r v).expVarid = s.expVarid
      ∨ r = some .expVarid ∧ (s.writeRegister r v).expVarid = v.setWidth 16 := by
  unfold State.writeRegister
  split <;> simp

/-- Settles O44: two commands and one register write the expected id. -/
theorem threeWritersOfTheExpectedId : Obligations.ThreeWritersOfTheExpectedId := by
  intro s t hstep hne
  cases step_effect hstep with
  | command i rest u hface hexec ht =>
    cases exec_cases hexec with
    | buildReq v => exact .inl ⟨v, hface⟩
    | setExpid v => exact .inr (.inl ⟨v, hface⟩)
    | _ => exact absurd (by simp [ht]) hne
  | write addr v rest hface ht =>
    rcases (s.withPending rest).writeRegister_expVarid_cases (registerAt addr) v with hkeep | ⟨hreg, hset⟩
    · exact absurd (by simp [ht, hkeep]) hne
    · obtain rfl := eq_of_registerAt_expVarid hreg
      exact .inr (.inr (.inl ⟨v, rest, hface, by simpa [ht] using hset⟩))
  | release _ hleaves _ => exact .inr (.inr (.inr hleaves))
  | quiet _ _ _ _ ht => exact absurd (by simp [ht]) hne

/-! ### The reader's buffers and results (R24, R26, R122) -/

/-- Settles O45: RX_ARM empties `raw`, RX_BYTE stores its byte in SYNC and in COLLECT, and no other command writes
it. -/
theorem onlyReaderCommandsChangeRaw : Obligations.OnlyReaderCommandsChangeRaw := by
  intro s t hstep hne
  cases step_effect hstep with
  | command i rest u hface hexec ht =>
    cases exec_cases hexec with
    | rxArm => exact .inl ⟨hface, by simp [ht]⟩
    | rxStart hphase => exact .inr (.inl ⟨_, hface, .inl ⟨hphase, by simp [ht]⟩⟩)
    | rxTerm hphase | rxFull _ hphase _ _ | rxStore _ hphase _ _ =>
      exact .inr (.inl ⟨_, hface, .inr ⟨hphase, by simp [ht]⟩⟩)
    | _ => exact absurd (by simp [ht]) hne
  | release _ hleaves ht => exact .inr (.inr ⟨hleaves, by simp [ht, State.resetWith]⟩)
  | write _ _ _ _ ht | quiet _ _ _ _ ht => exact absurd (by simp [ht]) hne

/-- Settles O35: only the ways to end a collection write the results, RX_ARM apart, and none is open in DONE. -/
theorem parseResultsPersist : Obligations.ParseResultsPersist := by
  intro s t hstep hnotArm hnotLeaving
  cases step_effect hstep with
  | command i rest u hface hexec ht =>
    cases exec_cases hexec with
    | rxArm => exact absurd hface hnotArm
    | rxStart hphase | rxTerm hphase | rxFull _ hphase | rxStore _ hphase | timeoutSync hphase
    | timeoutCollect hphase =>
      change s.rxState = _ at hphase
      simp [ht, hphase]
    | _ => simp [ht]
  | release _ hleaves _ => exact absurd hleaves hnotLeaving
  | write _ _ _ _ ht | quiet _ _ _ _ ht => simp [ht]

/-! ### The bits of the register words (R29, R30, R36) -/

/-- The bits of a word that holds one flag. -/
theorem getLsbD_bitAt (b : Bool) (i j : Nat) : (bitAt b i).getLsbD j = (b && decide (j < 32) && decide (j = i)) := by
  cases b with
  | false => simp [bitAt]
  | true =>
    rw [Bool.eq_iff_iff]
    simp [bitAt]
    omega

/-- A flag is not seen in a slice of the word that leaves its bit out. -/
theorem extractLsb'_bitAt (b : Bool) {i a m : Nat} (h : i < a ∨ a + m ≤ i) : (bitAt b i).extractLsb' a m = 0 :=
  BitVec.eq_of_getLsbD_eq fun k hk => by
    have hne : a + k ≠ i := by omega
    simp [BitVec.getLsbD_extractLsb', getLsbD_bitAt, hne]

theorem RxState.code_eq_setWidth (x : RxState) : ∃ b : BitVec 2, x.code = b.setWidth 32 :=
  ⟨x.code.setWidth 2, by cases x <;> rfl⟩

theorem RxCode.code_eq_setWidth (x : RxCode) : ∃ b : BitVec 4, x.code = b.setWidth 32 :=
  ⟨x.code.setWidth 4, by cases x <;> rfl⟩

theorem RxEnd.code_eq_setWidth (x : RxEnd) : ∃ b : BitVec 3, x.code = b.setWidth 32 :=
  ⟨x.code.setWidth 3, by cases x <;> rfl⟩

theorem State.statusWord_flags (s : State) :
    s.statusWord.getLsbD 2 = s.txOpen ∧ s.statusWord.getLsbD 3 = s.dsEsc ∧ s.statusWord.getLsbD 8 = s.errIllegal
      ∧ s.statusWord.getLsbD 9 = s.errTxseq ∧ s.statusWord.getLsbD 10 = s.errRxdrop
      ∧ s.statusWord.getLsbD 11 = s.errDstrunc ∧ s.statusWord.getLsbD 16 = s.evtRxdone := by
  obtain ⟨b, hb⟩ := s.rxState.code_eq_setWidth
  simp only [State.statusWord, hb, BitVec.getLsbD_or, getLsbD_bitAt]
  simp

/-- A slice of STATUS that leaves every flag out shows the phase. -/
theorem State.extractLsb'_statusWord (s : State) {a m : Nat}
    (h : ∀ i ∈ [2, 3, 8, 9, 10, 11, 16], i < a ∨ a + m ≤ i) :
    s.statusWord.extractLsb' a m = s.rxState.code.extractLsb' a m := by
  simp only [List.forall_mem_cons] at h
  obtain ⟨h2, h3, h8, h9, h10, h11, h16, -⟩ := h
  simp [State.statusWord, BitVec.extractLsb'_or, extractLsb'_bitAt, *]

theorem State.ctrlWord_flags (s : State) :
    s.ctrlWord.getLsbD 0 = s.ctrlRxie ∧ s.ctrlWord.getLsbD 1 = s.ctrlErrie ∧ s.ctrlWord.extractLsb' 2 30 = 0 := by
  simp only [State.ctrlWord, BitVec.getLsbD_or, getLsbD_bitAt]
  simp [BitVec.extractLsb'_or, extractLsb'_bitAt]

theorem ParseResults.resultWord_flags (r : ParseResults) :
    r.resultWord.getLsbD 7 = false ∧ r.resultWord.getLsbD 8 = r.rxFlags.trunc ∧ r.resultWord.getLsbD 9 = r.rxFlags.sent
      ∧ r.resultWord.getLsbD 10 = r.rxFlags.fv ∧ r.resultWord.getLsbD 11 = r.rxFlags.crcBad
      ∧ r.resultWord.getLsbD 12 = r.rxFlags.addrErr ∧ r.resultWord.getLsbD 13 = r.rxFlags.typeErr
      ∧ r.resultWord.getLsbD 14 = r.rxFlags.vidErr ∧ r.resultWord.getLsbD 15 = r.rxFlags.unitErr
      ∧ r.resultWord.getLsbD 16 = r.rxFlags.tailErr := by
  obtain ⟨c, hc⟩ := r.rxCode.code_eq_setWidth
  obtain ⟨e, he⟩ := r.rxEnd.code_eq_setWidth
  simp only [ParseResults.resultWord, hc, he, BitVec.getLsbD_or, getLsbD_bitAt]
  simp

/-- A slice of RX_RESULT below or above the flags shows the two codes. -/
theorem ParseResults.extractLsb'_resultWord (r : ParseResults) {a m : Nat} (h : a + m ≤ 8 ∨ 17 ≤ a) :
    r.resultWord.extractLsb' a m
      = r.rxCode.code.extractLsb' a m ||| (r.rxEnd.code <<< 4).extractLsb' a m := by
  have hflag (b : Bool) (i : Nat) (hi : 8 ≤ i ∧ i ≤ 16) : (bitAt b i).extractLsb' a m = 0 :=
    extractLsb'_bitAt b (by omega)
  simp [ParseResults.resultWord, BitVec.extractLsb'_or, hflag]

theorem ParseResults.resultWord_codes (r : ParseResults) :
    r.resultWord.extractLsb' 0 4 = r.rxCode.code.extractLsb' 0 4
      ∧ r.resultWord.extractLsb' 4 3 = r.rxEnd.code.extractLsb' 0 3 ∧ r.resultWord.extractLsb' 17 15 = 0 := by
  have hcode : r.rxCode.code.extractLsb' 4 3 = 0 ∧ r.rxCode.code.extractLsb' 17 15 = 0 := by
    cases r.rxCode <;> decide
  have hend : (r.rxEnd.code <<< 4).extractLsb' 0 4 = 0
      ∧ (r.rxEnd.code <<< 4).extractLsb' 4 3 = r.rxEnd.code.extractLsb' 0 3
      ∧ (r.rxEnd.code <<< 4).extractLsb' 17 15 = 0 := by
    cases r.rxEnd <;> decide
  simp [r.extractLsb'_resultWord, hcode, hend]

/-- Settles O54: the flags are at their bits, and of the rest of the word the phase's code fills the low two bits. -/
theorem statusBits : Obligations.StatusBits := by
  intro s w
  have hw : w = s.statusWord := rfl
  have hslice {a m : Nat} := s.extractLsb'_statusWord (a := a) (m := m)
  obtain ⟨hopen, hesc, hill, hseq, hdrop, htrunc, hdone⟩ := s.statusWord_flags
  rw [hw, hslice (by decide), hslice (by decide), hslice (by decide), hslice (by decide)]
  refine ⟨?_, hopen, hesc, ?_, hill, hseq, hdrop, htrunc, ?_, hdone, ?_⟩ <;> cases s.rxState <;> rfl

/-- Settles O55: the flags are at their bits, and of the rest of the word the two codes fill their fields. -/
theorem rxResultBits : Obligations.RxResultBits := by
  intro s w f
  have hw : w = s.parsed.resultWord := rfl
  obtain ⟨h7, h8, h9, h10, h11, h12, h13, h14, h15, h16⟩ := s.parsed.resultWord_flags
  obtain ⟨hcode, hend, hreserved⟩ := s.parsed.resultWord_codes
  rw [hw, hcode, hend]
  refine ⟨?_, ?_, h7, h8, h9, h10, h11, h12, h13, h14, h15, h16, hreserved, ?_, ?_⟩
  · cases s.parsed.rxCode <;> rfl
  · cases s.parsed.rxEnd <;> rfl
  · cases s.parsed.rxCode <;> decide
  · cases s.parsed.rxEnd <;> decide

/-! ### Register writes and irq (R48, R127) -/

/-- An accepted aligned write to anything but CMD is a register write. -/
theorem step_of_write {s : State} {addr : RegAddr} {v : Word} {rest : List HostEvent}
    (h : s.Faces (.write addr 4 v) rest) (halign : addr.toNat % 4 = 0) (hcmd : addr ≠ 0x000) :
    step s = .next (((s.withPending rest).writeRegister (registerAt addr) v).respond .completed) := by
  rw [step_of_faces h]
  exact memWrite_register halign hcmd v _

/-- Settles O57: the three registers' cases of a register write. -/
theorem registerWrites : Obligations.RegisterWrites := by
  refine fun s rest v => ⟨fun h => ?_, fun h => ?_, fun h => ?_⟩
  · rw [step_of_write h (by decide) (by decide)]
    rfl
  · rw [step_of_write h (by decide) (by decide)]
    rfl
  · rw [step_of_write h (by decide) (by decide), ← BitVec.setWidth_eq_extractLsb' (by decide)]
    rfl

/-- Acknowledging every bit that STATUS shows leaves no source of irq (R138). -/
theorem State.irq_clearSticky_statusWord (s : State) : (s.clearSticky s.statusWord).irq = false := by
  simp only [State.irq, State.clearSticky_fields, State.statusWord_flags, Bool.and_not_self, Bool.and_false,
    Bool.or_false]

/-- Settles O58: STATUS and CTRL show what irq is computed from; the two writes are register writes. -/
theorem irqIsTheLevelOfTheEnabledBits : Obligations.IrqIsTheLevelOfTheEnabledBits := by
  intro s st ctrl
  have hst : st = s.statusWord := rfl
  have hctrl : ctrl = s.ctrlWord := rfl
  obtain ⟨hrxie, herrie, hreserved⟩ := s.ctrlWord_flags
  refine ⟨?_, hrxie, herrie, hreserved, fun rest h => ⟨_, step_of_write h (by decide) (by decide), ?_⟩,
    fun rest h => ⟨_, step_of_write h (by decide) (by decide), ?_, rfl⟩⟩
  · simp only [hst, hctrl, State.statusWord_flags, hrxie, herrie]
    simp [State.irq, or_assoc]
  · exact (s.withPending rest).irq_clearSticky_statusWord
  · rfl

/-! ### The sticky bits (R29, R135) -/

/-- Every sticky bit that is set in `s` is set in `t`. -/
def State.StickyLe (s t : State) : Prop :=
  (s.errIllegal → t.errIllegal) ∧ (s.errTxseq → t.errTxseq) ∧ (s.errRxdrop → t.errRxdrop)
    ∧ (s.errDstrunc → t.errDstrunc) ∧ (s.evtRxdone → t.evtRxdone)

/-- Commands only set sticky bits. -/
theorem ExecCase.stickyLe {s t : State} {i : Instr} (h : ExecCase s i t) : s.StickyLe t := by
  cases h with
  | txFirst | txBody | txLast | buildReq => exact ⟨id, fun hseq => by simp [hseq], id, id, id⟩
  | dsEnd => exact ⟨id, id, id, fun htrunc => by simp [htrunc], id⟩
  | rxDrop => exact ⟨id, id, fun _ => rfl, id, id⟩
  | rxTerm | rxFull | timeoutSync | timeoutCollect => exact ⟨id, id, id, id, fun _ => rfl⟩
  | nop | crcInit | crcByte | dsEscaped | dsMarker | dsPlain | rxArm | rxSkip | rxStart | rxStore | timeoutIgnored
  | setExpid => exact ⟨id, id, id, id, id⟩

/-- `k` is the position of a sticky bit in STATUS. -/
def IsSticky (k : Nat) : Prop := k = 8 ∨ k = 9 ∨ k = 10 ∨ k = 11 ∨ k = 16

theorem State.StickyLe.statusWord {s t : State} (h : s.StickyLe t) {k : Nat} (hk : IsSticky k)
    (hset : s.statusWord.getLsbD k = true) : t.statusWord.getLsbD k = true := by
  obtain ⟨hill, hseq, hdrop, htrunc, hdone⟩ := h
  rcases hk with rfl | rfl | rfl | rfl | rfl <;> simp only [State.statusWord_flags] at hset ⊢
  · exact hill hset
  · exact hseq hset
  · exact hdrop hset
  · exact htrunc hset
  · exact hdone hset

/-- What a W1C write leaves of a sticky bit. -/
theorem State.getLsbD_statusWord_clearSticky (s : State) (v : Word) {k : Nat} (hk : IsSticky k) :
    (s.clearSticky v).statusWord.getLsbD k = (s.statusWord.getLsbD k && !v.getLsbD k) := by
  rcases hk with rfl | rfl | rfl | rfl | rfl <;> simp only [State.statusWord_flags, State.clearSticky_fields]

/-- A register write other than the W1C write to STATUS keeps the sticky bits. -/
theorem State.writeRegister_sticky_cases (s : State) (r : Option Register) (v : Word) :
    s.StickyLe (s.writeRegister r v) ∨ r = some .status ∧ s.writeRegister r v = s.clearSticky v := by
  unfold State.writeRegister
  split
  · exact .inr ⟨rfl, rfl⟩
  all_goals exact .inl ⟨id, id, id, id, id⟩

/-- Settles O48: commands and the other steps only set sticky bits, so a bit fell by the W1C write. -/
theorem stickyBitsFallOnlyByW1cOrReset : Obligations.StickyBitsFallOnlyByW1cOrReset := by
  intro s t hstep hnotLeaving k hk (hset : s.statusWord.getLsbD k = true) (hclear : t.statusWord.getLsbD k = false)
  have hfell : ¬ s.StickyLe t := fun hle => by simp [hle.statusWord hk hset] at hclear
  cases step_effect hstep with
  | command i rest u _ hexec ht =>
    have hle := (exec_cases hexec).stickyLe
    exact absurd (by rw [ht]; exact hle) hfell
  | write addr v rest hface ht =>
    rcases (s.withPending rest).writeRegister_sticky_cases (registerAt addr) v with hle | ⟨hreg, hwrite⟩
    · exact absurd (by rw [ht]; exact hle) hfell
    · obtain rfl := eq_of_registerAt_status hreg
      have hbit := (s.withPending rest).getLsbD_statusWord_clearSticky v hk
      rw [hwrite] at ht
      have : (s.statusWord.getLsbD k && !v.getLsbD k) = false := by rw [← hclear, ht]; exact hbit.symm
      exact ⟨v, rest, hface, by simpa [hset] using this⟩
  | release _ hleaves _ => exact absurd hleaves hnotLeaving
  | quiet _ _ _ _ ht => exact absurd (by simp +contextual [ht, State.StickyLe]) hfell

/-! ### The values of the registers and the windows (R27 to R47, R126) -/

theorem toNat_len9 {n : Nat} (h : n < 512) : (len9 n).toNat = n := by
  simpa [len9] using h

/-- DS_LAST is the last byte, with `ds_valid` above it (R35). -/
theorem toNat_dsLastWord (valid : Bool) (b : Byte) :
    (bitAt valid 8 ||| b.setWidth 32).toNat = b.toNat + if valid then 256 else 0 := by
  rw [BitVec.toNat_or, BitVec.toNat_setWidth_of_le (by decide)]
  cases valid with
  | false => simp [bitAt]
  | true =>
    have hor : 2 ^ 8 * 1 + b.toNat = 2 ^ 8 * 1 ||| b.toNat := Nat.two_pow_add_eq_or_of_lt b.isLt 1
    calc (bitAt true 8).toNat ||| b.toNat = 2 ^ 8 * 1 ||| b.toNat := rfl
      _ = b.toNat + 256 := by rw [← hor]; omega

/-- Settles O52: each register is its component, zero-extended, and the two lengths pass through nine bits. -/
theorem registerValues : Obligations.RegisterValues := by
  intro s
  have hmax : s.params.rxMax < 512 := by
    have := rxMax_bounds s.params
    omega
  refine ⟨rfl, rfl, ?_, ?_, ?_, ?_, ?_, fun hraw => ?_, fun hplain => ?_, ?_, ?_, ?_, ?_, ?_, ?_, ?_⟩
  · exact (BitVec.toNat_setWidth_of_le (by decide)).trans (toNat_len9 hmax)
  · exact BitVec.toNat_setWidth_of_le (by decide)
  · exact BitVec.toNat_setWidth_of_le (by decide)
  · exact BitVec.toNat_setWidth_of_le (by decide)
  · exact toNat_dsLastWord s.dsValid s.dsLast
  · exact (BitVec.toNat_setWidth_of_le (by decide)).trans (toNat_len9 hraw)
  · exact (BitVec.toNat_setWidth_of_le (by decide)).trans (toNat_len9 hplain)
  · exact BitVec.toNat_setWidth_of_le (by decide)
  · exact BitVec.toNat_setWidth_of_le (by decide)
  · exact BitVec.toNat_setWidth_of_le (by decide)
  · exact BitVec.toNat_setWidth_of_le (by decide)
  · exact BitVec.toNat_setWidth_of_le (by decide)
  · exact BitVec.toNat_setWidth_of_le (by decide)
  · exact BitVec.toNat_setWidth_of_le (by decide)

/-- Above the registers the map holds the two windows and nothing else (R52). -/
theorem registerAt_of_ge {addr : RegAddr} (h : 0x400 ≤ addr.toNat) :
    registerAt addr =
      if addr.toNat < 0x800 then some (.raw (BitVec.ofNat 8 ((addr.toNat - 0x400) / 4)))
      else if addr.toNat < 0xC00 then some (.plain (BitVec.ofNat 8 ((addr.toNat - 0x800) / 4)))
      else none := by
  unfold registerAt
  split
  case h_20 =>
    by_cases h8 : addr.toNat < 0x800
    · simp [h, h8]
    · simp [h8, not_lt.1 h8]
  all_goals exact absurd h (by decide)

theorem registerAt_raw {i : Nat} (h : i ≤ 255) :
    registerAt (BitVec.ofNat 12 (0x400 + 4 * i)) = some (.raw (BitVec.ofNat 8 i)) := by
  have haddr : (BitVec.ofNat 12 (0x400 + 4 * i)).toNat = 0x400 + 4 * i := Nat.mod_eq_of_lt (by omega)
  have hindex : (0x400 + 4 * i - 0x400) / 4 = i := by omega
  rw [registerAt_of_ge (by omega), haddr, if_pos (by omega), hindex]

theorem registerAt_plain {i : Nat} (h : i ≤ 255) :
    registerAt (BitVec.ofNat 12 (0x800 + 4 * i)) = some (.plain (BitVec.ofNat 8 i)) := by
  have haddr : (BitVec.ofNat 12 (0x800 + 4 * i)).toNat = 0x800 + 4 * i := Nat.mod_eq_of_lt (by omega)
  have hindex : (0x800 + 4 * i - 0x800) / 4 = i := by omega
  rw [registerAt_of_ge (by omega), haddr, if_neg (by omega), if_pos (by omega), hindex]

theorem getElem?_eq_some_byteAt {xs : List Byte} {i : Nat} (h : i < xs.length) : xs[i]? = some (byteAt xs i) := by
  simp [byteAt, h]

/-- A window word is the byte at its index, and 0 beyond the length (R46, R47). -/
theorem toNat_windowWord (xs : List Byte) {i : Nat} (h : i ≤ 255) :
    (windowWord xs (BitVec.ofNat 8 i)).toNat = ((xs[i]?).map BitVec.toNat).getD 0 := by
  have hi : (BitVec.ofNat 8 i).toNat = i := Nat.mod_eq_of_lt (by omega)
  rw [windowWord, hi]
  split
  next hlt =>
    rw [BitVec.toNat_setWidth_of_le (by decide), getElem?_eq_some_byteAt hlt]
    rfl
  next hge => simp [List.getElem?_eq_none (not_lt.1 hge)]

/-- Settles O53: the address is that of word `i` of the window. -/
theorem windowsShowTheBuffers : Obligations.WindowsShowTheBuffers := by
  intro s i hi
  simp only [State.readWord, registerAt_raw hi, registerAt_plain hi, State.readRegister]
  exact ⟨toNat_windowWord s.raw hi, toNat_windowWord s.plain hi⟩

/-! ### What a parse writes (R113 to R121) -/

/-- The end-token check fails on a last byte that is another (R119). -/
theorem tailErrFlag_iff (p : List Byte) : tailErrFlag p = true ↔ p ≠ [] ∧ p.getLast? ≠ some frameEnd := by
  rcases List.eq_nil_or_concat p with rfl | ⟨front, z, rfl⟩
  · simp
  · simp [tailErrFlag_append]

/-- The fields and their checks, for a frame that holds every field (R113, R116 to R118, R120). -/
theorem parseFrame_of_nine_le (params : Params) (v : Half) (e : RxEnd) (raw : List Byte)
    (h : 9 ≤ (destuff raw).1.length) :
    let p := (destuff raw).1
    let r := parseFrame params v e raw
    r.fAddr = byteAt p 1 ∧ r.fType = byteAt p 2 ∧ r.fVarid = byteAt p 3 ++ byteAt p 4 ∧ r.fUnit = byteAt p 5
      ∧ r.fCrcField = byteAt p (p.length - 3) ++ byteAt p (p.length - 2)
      ∧ r.fCrcCalc = crc16 ((p.drop 1).take (p.length - 4)) ∧ r.fPlLen = len9 (p.length - 9)
      ∧ r.rxFlags.crcBad = (r.fCrcField != r.fCrcCalc) ∧ r.rxFlags.addrErr = (byteAt p 1 != addrByte)
      ∧ r.rxFlags.typeErr = (byteAt p 2 != cmdRtype) ∧ r.rxFlags.vidErr = (byteAt p 3 ++ byteAt p 4 != v)
      ∧ r.rxFlags.unitErr = unitErrFlag (byteAt p 5) := by
  simp [parseFrame, extractFields, (fvFlag_iff _).2 h, be16_eq_append, slice, Nat.sub_sub]

/-- A shorter frame has no fields, and no check of one fails. -/
theorem parseFrame_of_lt_nine (params : Params) (v : Half) (e : RxEnd) (raw : List Byte)
    (h : (destuff raw).1.length < 9) :
    let r := parseFrame params v e raw
    r.fAddr = 0 ∧ r.fType = 0 ∧ r.fVarid = 0 ∧ r.fUnit = 0 ∧ r.fCrcField = 0 ∧ r.fCrcCalc = 0 ∧ r.fPlLen = 0
      ∧ r.rxFlags.crcBad = false ∧ r.rxFlags.addrErr = false ∧ r.rxFlags.typeErr = false
      ∧ r.rxFlags.vidErr = false ∧ r.rxFlags.unitErr = false := by
  simp [parseFrame, (fvFlag_eq_false_iff _).2 h, ParseResults.clear, RxFlags.clear]

/-- The gates of R121, read as statements. -/
theorem resultCode_eq (n : Nat) (f : RxFlags) :
    resultCode n f =
      if n = 0 then .rxFail
      else if f.sent = true then .noValue
      else if f.fv = false then .short
      else if f.addrErr = true ∨ f.typeErr = true ∨ f.vidErr = true then .structErr
      else if f.unitErr = true then .unitErr
      else .ok := by
  simp [resultCode, or_assoc]

/-- Settles O17: what `parseFrame` writes in every case, and with nine bytes or more, and with fewer. -/
theorem finishWritesEveryParseResult : Obligations.FinishWritesEveryParseResult := by
  intro s e hraw t p n f
  obtain ⟨hend, htrunc, hsent, hfv, htail, hcode⟩ := parseFrame_base s.params s.expVarid e s.raw
  refine ⟨rfl, hend, htrunc, ?_, ?_, ?_, hcode.trans (resultCode_eq n f), fun hn => ?_,
    parseFrame_of_lt_nine s.params s.expVarid e s.raw⟩
  · exact (Bool.eq_iff_iff.1 hsent).trans (sentFlag_iff s.params.sentinel p)
  · exact (Bool.eq_iff_iff.1 hfv).trans (fvFlag_iff p)
  · exact (Bool.eq_iff_iff.1 htail).trans (tailErrFlag_iff p)
  · obtain ⟨haddr, htype, hvarid, hunit, hfield, hcalc, hlen, hcrcBad, haddrErr, htypeErr, hvidErr, hunitErr⟩ :=
      parseFrame_of_nine_le s.params s.expVarid e s.raw hn
    have hbyte {i : Nat} (hi : i < n) : p[i]? = some (byteAt p i) := getElem?_eq_some_byteAt hi
    have hpayload : n - 9 < 512 := by
      have hle : n ≤ s.raw.length := destuff_length_le s.raw
      have := rxMax_bounds s.params
      omega
    exact ⟨_, _, _, _, _, _, _, hbyte (by omega), hbyte (by omega), hbyte (by omega), hbyte (by omega),
      hbyte (by omega), hbyte (by omega), hbyte (by omega), haddr, htype, hvarid, hunit, hfield, hcalc,
      (congrArg BitVec.toNat hlen).trans (toNat_len9 hpayload), (Bool.eq_iff_iff.1 hcrcBad).trans bne_iff_ne,
      (Bool.eq_iff_iff.1 haddrErr).trans bne_iff_ne, (Bool.eq_iff_iff.1 htypeErr).trans bne_iff_ne,
      (Bool.eq_iff_iff.1 hvidErr).trans bne_iff_ne, (Bool.eq_iff_iff.1 hunitErr).trans (unitErrFlag_iff _)⟩

end Sys2Proof.Machine

/-! PROOFS. The register space (20_memory.md): the address map read from a register's offset, the unmapped words, and
what a read and an ignored write do. -/

namespace Sys2Proof.Machine

/-! ### Reads (R54, R126) -/

/-- A read answers the word and only consumes the access. -/
theorem step_of_read {s : State} {rest : List HostEvent} {addr : RegAddr} (h : s.Faces (.read addr 4) rest)
    (halign : addr.toNat % 4 = 0) :
    step s = .next { s with pending := rest, responses := s.responses ++ [.value (s.readWord addr)] } := by
  have hok : accessOk addr 4 = true := (accessOk_iff addr 4).2 ⟨rfl, halign⟩
  have hvalue : (s.withPending rest).memRead addr 4 = .value (s.readWord addr) := if_pos hok
  calc step s = .next ((s.withPending rest).respond ((s.withPending rest).memRead addr 4)) := step_of_faces h
    _ = .next ((s.withPending rest).respond (.value (s.readWord addr))) := by rw [hvalue]

theorem step_of_idle {s : State} (h : s.pending = []) : step s = .next s := by
  simp [step, takeEvent, h]

/-- Settles O50: a read has no effect but its response, and with no event there is nothing to take. -/
theorem readsChangeNothing : Obligations.ReadsChangeNothing :=
  ⟨fun _ _ _ hfaces halign => step_of_read hfaces halign, fun _ => step_of_idle⟩

/-! ### The address map at a register's offset (R52) -/

/-- Word `i` of a window is at the window's base plus `4 * i`. -/
theorem windowOffset_eq (base : RegAddr) (i : Byte) :
    base + i.setWidth 12 * 4 = BitVec.ofNat 12 (base.toNat + 4 * i.toNat) := by
  bv_omega

theorem offsetOf_raw (i : Byte) : offsetOf (.raw i) = BitVec.ofNat 12 (0x400 + 4 * i.toNat) := windowOffset_eq 0x400 i

theorem offsetOf_plain (i : Byte) : offsetOf (.plain i) = BitVec.ofNat 12 (0x800 + 4 * i.toNat) :=
  windowOffset_eq 0x800 i

/-- The map finds each register at its offset. -/
@[simp] theorem registerAt_offsetOf (r : Register) : registerAt (offsetOf r) = some r := by
  cases r with
  | raw i => rw [offsetOf_raw, registerAt_raw (by omega), BitVec.ofNat_toNat, BitVec.setWidth_eq]
  | plain i => rw [offsetOf_plain, registerAt_plain (by omega), BitVec.ofNat_toNat, BitVec.setWidth_eq]
  | _ => rfl

theorem offsetOf_injective : Function.Injective offsetOf := fun q r h =>
  Option.some_injective _ (by rw [← registerAt_offsetOf q, h, registerAt_offsetOf])

theorem State.readWord_offsetOf (s : State) (r : Register) : s.readWord (offsetOf r) = s.readRegister r := by
  simp [State.readWord]

theorem offsetOf_aligned (r : Register) : (offsetOf r).toNat % 4 = 0 := by
  cases r with
  | raw i =>
    rw [offsetOf_raw, BitVec.toNat_ofNat]
    omega
  | plain i =>
    rw [offsetOf_plain, BitVec.toNat_ofNat]
    omega
  | _ => rfl

/-- Settles O51: the map inverts `offsetOf`, so the offset reads as the register and no two registers share one. -/
theorem everyRegisterIsReadAtItsOffset : Obligations.EveryRegisterIsReadAtItsOffset :=
  fun s r => ⟨s.readWord_offsetOf r, offsetOf_aligned r, fun _ h => offsetOf_injective h⟩

/-! ### Unmapped words and ignored writes (R53) -/

theorem registerAt_eq_none {addr : RegAddr}
    (h : 0x048 < addr.toNat ∧ addr.toNat < 0x400 ∨ 0xC00 ≤ addr.toNat) : registerAt addr = none := by
  unfold registerAt
  split
  case h_20 => rw [if_neg (by omega), if_neg (by omega)]
  all_goals exact absurd h (by decide)

theorem State.readWord_of_unmapped_or_cmd (s : State) {addr : RegAddr}
    (h : addr = 0x000 ∨ 0x048 < addr.toNat ∧ addr.toNat < 0x400 ∨ 0xC00 ≤ addr.toNat) :
    s.readWord addr = 0x00000000 := by
  rcases h with rfl | hunmapped
  · rfl
  · rw [State.readWord, registerAt_eq_none hunmapped]

/-- Only STATUS, CTRL and EXP_VARID take a register write (R127). -/
theorem State.writeRegister_ignored (s : State) (v : Word) {addr : RegAddr} (hstatus : addr ≠ 0x004)
    (hctrl : addr ≠ 0x008) (hexp : addr ≠ 0x01C) : s.writeRegister (registerAt addr) v = s := by
  unfold State.writeRegister
  split
  case h_1 h => exact absurd (eq_of_registerAt_status h) hstatus
  case h_2 h => exact absurd (eq_of_registerAt_ctrl h) hctrl
  case h_3 h => exact absurd (eq_of_registerAt_expVarid h) hexp
  case h_4 => rfl

/-- Settles O56: the words in question read 0, and a register write at the addresses in question is ignored. -/
theorem unmappedAndReadOnlyWordsIgnoreWrites : Obligations.UnmappedAndReadOnlyWordsIgnoreWrites := by
  refine ⟨fun s rest addr hfaces halign hzero => ?_, fun s rest addr v hfaces halign hnotWritable => ?_⟩
  · rw [step_of_read hfaces halign, s.readWord_of_unmapped_or_cmd hzero]
  · obtain ⟨hcmd, hstatus, hctrl, hexp⟩ :
        addr ≠ 0x000 ∧ addr ≠ 0x004 ∧ addr ≠ 0x008 ∧ addr ≠ 0x01C := by simpa using hnotWritable
    rw [step_of_write hfaces halign hcmd, State.writeRegister_ignored _ v hstatus hctrl hexp]
    rfl

end Sys2Proof.Machine

/-! PROOFS. The encoding (30_encoding.md): the encoder and the decoder agree (R64 to R73), and what the commands that a
pseudo-instruction stands for do when run one after the other (R74). -/

namespace Sys2Proof.Machine

/-! ### The operand forms (R65, R71) -/

theorem decodeNone_eq_ok_iff (i j : Instr) (imm : Half) : decodeNone i imm = .ok j ↔ imm = 0 ∧ i = j := by
  unfold decodeNone
  split <;> simp_all

theorem decodeByte_eq_ok_iff (k : Byte → Instr) (imm : Half) (j : Instr) :
    decodeByte k imm = .ok j ↔ hi imm = 0 ∧ k (lo imm) = j := by
  unfold decodeByte
  split <;> simp_all

theorem decodeHalf_eq_ok_iff (k : Half → Instr) (imm : Half) (j : Instr) : decodeHalf k imm = .ok j ↔ k imm = j := by
  simp [decodeHalf]

@[simp] theorem decodeByte_setWidth (k : Byte → Instr) (b : Byte) : decodeByte k (b.setWidth 16) = .ok (k b) := by
  simp [decodeByte_eq_ok_iff]

/-! ### The opcodes (R66, R72) -/

/-- The thirteen defined opcodes (R67). -/
def opcodes : List Byte :=
  [0x00#8, 0x01#8, 0x02#8, 0x10#8, 0x11#8, 0x12#8, 0x18#8, 0x19#8, 0x20#8, 0x21#8, 0x22#8, 0x30#8, 0x31#8]

/-- What an opcode is: its form, how the decoder reads its operand, and the word of each command it has. -/
inductive OpcodeCase (op : Byte) : Prop where
  | none (i : Instr) (hform : formOf op = some .none) (hdecode : decodeOp op = decodeNone i)
      (hencode : encode i = commandWord op 0)
  | byte (k : Byte → Instr) (hform : formOf op = some .byte) (hdecode : decodeOp op = decodeByte k)
      (hencode : ∀ b, encode (k b) = commandWord op (b.setWidth 16))
  | half (k : Half → Instr) (hform : formOf op = some .half) (hdecode : decodeOp op = decodeHalf k)
      (hencode : ∀ v, encode (k v) = commandWord op v)
  | undefined (hform : formOf op = Option.none) (hdecode : ∀ imm, decodeOp op imm = .error (.undefinedOpcode op))

theorem decodeOp_of_notMem {op : Byte} (h : op ∉ opcodes) (imm : Half) :
    decodeOp op imm = .error (.undefinedOpcode op) := by
  unfold decodeOp
  split
  case h_14 => rfl
  all_goals exact absurd (by decide) h

theorem formOf_of_notMem {op : Byte} (h : op ∉ opcodes) : formOf op = none := by
  simp only [opcodes, List.mem_cons, List.not_mem_nil, or_false, not_or] at h
  simp [formOf, h]

theorem formOf_ne_none_of_mem : ∀ op ∈ opcodes, formOf op ≠ none := by decide

theorem formOf_ne_none_iff (op : Byte) : formOf op ≠ none ↔ op ∈ opcodes :=
  ⟨not_imp_comm.1 formOf_of_notMem, formOf_ne_none_of_mem op⟩

theorem opcode_cases (op : Byte) : OpcodeCase op := by
  by_cases hmem : op ∈ opcodes
  · simp only [opcodes, List.mem_cons, List.not_mem_nil, or_false] at hmem
    rcases hmem with rfl | rfl | rfl | rfl | rfl | rfl | rfl | rfl | rfl | rfl | rfl | rfl | rfl
    · exact .none .nop rfl rfl rfl
    · exact .none .crcInit rfl rfl rfl
    · exact .byte .crcByte rfl rfl fun _ => rfl
    · exact .byte .txFirst rfl rfl fun _ => rfl
    · exact .byte .txBody rfl rfl fun _ => rfl
    · exact .byte .txLast rfl rfl fun _ => rfl
    · exact .byte .dsByte rfl rfl fun _ => rfl
    · exact .none .dsEnd rfl rfl rfl
    · exact .none .rxArm rfl rfl rfl
    · exact .byte .rxByte rfl rfl fun _ => rfl
    · exact .none .rxTimeout rfl rfl rfl
    · exact .half .setExpid rfl rfl fun _ => rfl
    · exact .half .buildReq rfl rfl fun _ => rfl
  · exact .undefined (formOf_of_notMem hmem) (decodeOp_of_notMem hmem)

/-! ### The decoder reads back the encoder's words, and the encoder writes back the decoder's (R64, R70, R73) -/

theorem decode_eq_ok_iff (w : Word) (i : Instr) :
    decode w = .ok i ↔ rsvField w = 0 ∧ decodeOp (opField w) (immField w) = .ok i := by
  unfold decode
  split <;> simp_all

theorem decode_commandWord (op : Byte) (x : Half) : decode (commandWord op x) = decodeOp op x := by
  simp [decode]

/-- Settles O2: the decoder gets back the opcode and the operand, and the opcode's form reads its operand. -/
theorem decodeReadsBackEveryCommand : Obligations.DecodeReadsBackEveryCommand := by
  intro i
  cases i with
  | nop | crcInit | dsEnd | rxArm | rxTimeout | setExpid v | buildReq v => exact decode_commandWord _ _
  | crcByte b | txFirst b | txBody b | txLast b | dsByte b | rxByte b =>
    exact (decode_commandWord _ _).trans (decodeByte_setWidth _ b)

theorem encode_of_decodeOp {op : Byte} {imm : Half} {i : Instr} (h : decodeOp op imm = .ok i) :
    encode i = commandWord op imm := by
  cases opcode_cases op with
  | none j _ hdecode hencode =>
    obtain ⟨rfl, rfl⟩ := (decodeNone_eq_ok_iff j i imm).1 (hdecode ▸ h)
    exact hencode
  | byte k _ hdecode hencode =>
    obtain ⟨hhi, rfl⟩ := (decodeByte_eq_ok_iff k imm i).1 (hdecode ▸ h)
    rw [hencode, setWidth_lo imm hhi]
  | half k _ hdecode hencode =>
    obtain rfl := (decodeHalf_eq_ok_iff k imm i).1 (hdecode ▸ h)
    exact hencode imm
  | undefined _ hdecode => simp [hdecode] at h

/-- Settles O3: the word is its opcode and its operand, which the encoder writes for the command read from them. -/
theorem encodeWritesBackEveryAcceptedWord : Obligations.EncodeWritesBackEveryAcceptedWord := by
  intro w i h
  obtain ⟨hrsv, hop⟩ := (decode_eq_ok_iff w i).1 h
  exact (encode_of_decodeOp hop).trans (commandWord_fields w hrsv)

/-! ### The decoder accepts the legal words (R67) -/

theorem hi_immField (w : Word) : hi (immField w) = w.extractLsb' 8 8 :=
  BitVec.eq_of_getLsbD_eq fun i h => by
    rw [getLsbD_hi, getLsbD_immField, BitVec.getLsbD_extractLsb']
    simp [show 8 + i < 16 by omega]

theorem exists_decode_iff_legal (w : Word) : (∃ i, decode w = .ok i) ↔ legal w = true := by
  simp only [decode_eq_ok_iff, exists_and_left, legal]
  cases opcode_cases (opField w) with
  | none i hform hdecode => simp [hform, hdecode, decodeNone_eq_ok_iff]
  | byte k hform hdecode => simp [hform, hdecode, decodeByte_eq_ok_iff]
  | half k hform hdecode => simp [hform, hdecode, decodeHalf_eq_ok_iff]
  | undefined hform hdecode => simp [hform, hdecode]

/-- The check in the words of R67. -/
theorem legal_iff (w : Word) :
    legal w = true ↔ opField w ∈ opcodes ∧ rsvField w = 0 ∧ (formOf (opField w) = some .none → immField w = 0)
      ∧ (formOf (opField w) = some .byte → hi (immField w) = 0) := by
  rw [← formOf_ne_none_iff]
  cases hform : formOf (opField w) with
  | none => simp [legal, hform]
  | some form => cases form <;> simp [legal, hform]

/-- Settles O4: the decoder and the check read the same form of the opcode. -/
theorem decodeAcceptsExactlyTheLegalWords : Obligations.DecodeAcceptsExactlyTheLegalWords := by
  intro w
  rw [← hi_immField]
  exact (exists_decode_iff_legal w).trans (legal_iff w)

/-- Settles O1: each word is closed, and so are its fields. -/
theorem decodesTheWordsOfTheSpec : Obligations.DecodesTheWordsOfTheSpec := by
  unfold Obligations.DecodesTheWordsOfTheSpec
  decide

/-! ### Commands one after the other (R58) -/

theorem execAll_cons {i : Instr} {s t : State} (h : exec i s = .next t) (is : List Instr) :
    execAll (i :: is) s = execAll is t := by
  simp [execAll, h]

theorem execAll_append {is : List Instr} {s t : State} (h : execAll is s = .next t) (js : List Instr) :
    execAll (is ++ js) s = execAll js t := by
  induction is generalizing s with
  | nil =>
    obtain rfl : s = t := by simpa [execAll] using h
    rfl
  | cons i is ih =>
    obtain ⟨u, hu, -⟩ := exec_completes i s
    rw [execAll_cons hu] at h
    rw [List.cons_append, execAll_cons hu, ih h]

/-! ### CRC (R74, R77 to R79) -/

theorem execAll_crcBytes (bytes : List Byte) (s : State) :
    execAll (bytes.map .crcByte) s = .next { s with crcAcc := bytes.foldl crcStep s.crcAcc } := by
  induction bytes generalizing s with
  | nil => rfl
  | cons b bytes ih => exact (execAll_cons rfl _).trans (ih _)

/-- Settles O24: CRC_INIT gives the fold its start, and each CRC_BYTE is one step of it. -/
theorem crcPseudoComputesTheChecksum : Obligations.CrcPseudoComputesTheChecksum :=
  fun bytes s => ⟨_, rfl, (execAll_cons rfl _).trans (execAll_crcBytes bytes { s with crcAcc := 0 })⟩

/-! ### STUFF (R74, R90 to R93) -/

theorem expand_stuff (first : Byte) (interior : List Byte) (last : Byte) :
    expand (.stuff (first :: interior ++ [last])) =
      some (.txFirst first :: interior.map .txBody ++ [.txLast last]) := by
  simp [expand]

theorem exec_txBody_of_open {s : State} (hopen : s.txOpen = true) (b : Byte) :
    exec (.txBody b) s = .next (s.emitTx (enc b)) := by
  rw [(ExecCase.txBody b).exec_eq]
  simp [hopen, State.setErrTxseqIf, State.emitTx]

/-- The interior of an open frame is emitted escaped, and nothing is flagged. -/
theorem execAll_txBodies (interior : List Byte) {s : State} (hopen : s.txOpen = true) :
    execAll (interior.map .txBody) s = .next (s.emitTx (interior.flatMap enc)) := by
  induction interior generalizing s with
  | nil => simp [execAll, State.emitTx]
  | cons b interior ih =>
    rw [List.map_cons, execAll_cons (exec_txBody_of_open hopen b), ih (by simpa using hopen)]
    simp [State.emitTx]

/-- Settles O27: TX_FIRST opens the frame, its interior finds it open, and TX_LAST closes it. -/
theorem stuffPseudoEmitsTheWireForm : Obligations.StuffPseudoEmitsTheWireForm := by
  intro first interior last s
  refine ⟨_, expand_stuff first interior last, ?_⟩
  rw [List.cons_append, execAll_cons (ExecCase.txFirst first).exec_eq, execAll_append (execAll_txBodies interior rfl),
    execAll_cons (ExecCase.txLast last).exec_eq]
  simp [execAll, State.emitTx, State.setErrTxseqIf]

/-! ### DESTUFF (R74, R95 to R97) -/

theorem execAll_dsEnd (s : State) :
    execAll [.dsEnd] s = .next { s.setErrDstruncIf s.dsEsc with dsEsc := false, dsValid := false } := rfl

theorem execAll_dsMarker {s : State} (hesc : s.dsEsc = false) (is : List Instr) :
    execAll (.dsByte esc :: is) s = execAll is { s with dsEsc := true, dsValid := false } :=
  execAll_cons (ExecCase.dsMarker hesc).exec_eq is

theorem execAll_dsPlain {s : State} (hesc : s.dsEsc = false) {b : Byte} (hb : b ≠ esc) (is : List Instr) :
    execAll (.dsByte b :: is) s = execAll is (s.decoderEmit b) :=
  execAll_cons (ExecCase.dsPlain b hesc hb).exec_eq is

theorem execAll_dsEscaped {s : State} (hesc : s.dsEsc = true) (b : Byte) (is : List Instr) :
    execAll (.dsByte b :: is) s = execAll is { s.decoderEmit (b ^^^ 0xFF) with dsEsc := false } :=
  execAll_cons (ExecCase.dsEscaped b hesc).exec_eq is

/-- The stream decoder takes the cases of `destuff` one by one: a list that begins with a marker and its byte goes from
no pending marker to no pending marker. -/
theorem execAll_dsBytes_dsEnd (bytes : List Byte) {s : State} (hesc : s.dsEsc = false) :
    execAll (bytes.map .dsByte ++ [.dsEnd]) s = .next { s with
      dsOut := s.dsOut ++ (destuff bytes).1
      dsLast := ((destuff bytes).1.getLast?).getD s.dsLast
      dsValid := false
      errDstrunc := s.errDstrunc || (destuff bytes).2 } := by
  induction bytes using destuff.induct generalizing s with
  | case1 => simp [execAll_dsEnd, hesc, State.setErrDstruncIf]
  | case2 => simp [execAll_dsMarker hesc, execAll_dsEnd, hesc, State.setErrDstruncIf]
  | case3 b hb =>
    simp [execAll_dsPlain hesc hb, execAll_dsEnd, hesc, State.setErrDstruncIf, destuff_plain hb, State.decoderEmit,
      State.emitDs]
  | case4 c rest ih =>
    simp only [List.map_cons, List.cons_append, execAll_dsMarker hesc]
    rw [execAll_dsEscaped rfl, ih rfl, destuff_marker]
    simp [State.decoderEmit, State.emitDs, List.getLast?_cons, hesc]
  | case5 b c rest hb ih =>
    rw [List.map_cons, List.cons_append, execAll_dsPlain hesc hb, ih (by simpa using hesc), destuff_plain hb]
    simp [State.decoderEmit, State.emitDs, List.getLast?_cons]

/-- Settles O28: the stream decoder computes `destuff`, which never adds a byte. -/
theorem destuffPseudoComputesDestuff : Obligations.DestuffPseudoComputesDestuff :=
  fun bytes _ hesc => ⟨_, rfl, execAll_dsBytes_dsEnd bytes hesc, destuff_length_le bytes⟩

end Sys2Proof.Machine

/-! PROOFS. The checksum generator (40_crc.md): one step is linear over GF(2), which fixes it by its values on single
bits; and what its two commands do. -/

namespace Sys2Proof.Machine

/-! ### The bytes of a 16-bit value under XOR and shift (R8) -/

theorem hi_xor (x y : Half) : hi (x ^^^ y) = hi x ^^^ hi y := BitVec.extractLsb'_xor

theorem hi_shiftLeft_eight (v : Half) : hi (v <<< 8) = lo v :=
  BitVec.eq_of_getLsbD_eq fun i h => by
    rw [getLsbD_hi, getLsbD_lo, BitVec.getLsbD_shiftLeft]
    simp [show 8 + i < 16 by omega]

theorem shiftLeft_eight_eight (v : Half) : v <<< 8 <<< 8 = 0#16 :=
  (BitVec.shiftLeft_add v 8 8).symm.trans (BitVec.shiftLeft_eq_zero le_rfl)

theorem toNat_hi (v : Half) : (hi v).toNat = v.toNat >>> 8 := by
  simp only [hi, BitVec.extractLsb'_toNat, Nat.shiftRight_eq_div_pow]
  omega

/-! ### Linear functions on words (R81) -/

/-- `f` is linear over GF(2): it takes XOR to XOR. -/
def XorLinear {v w : Nat} (f : BitVec v → BitVec w) : Prop := Function.Semiconj₂ f (· ^^^ ·) (· ^^^ ·)

theorem XorLinear.map_xor {v w : Nat} {f : BitVec v → BitVec w} (hf : XorLinear f) (x y : BitVec v) :
    f (x ^^^ y) = f x ^^^ f y := hf.eq x y

theorem XorLinear.map_zero {v w : Nat} {f : BitVec v → BitVec w} (hf : XorLinear f) : f 0#v = 0#w := by
  simpa using hf.map_xor 0#v 0#v

theorem XorLinear.iterate {w : Nat} {f : BitVec w → BitVec w} (hf : XorLinear f) (n : Nat) : XorLinear f^[n] :=
  Function.Semiconj₂.iterate hf n

/-- Two linear functions that agree on the words of one set bit agree: the set bits of a word are taken off one by
one, from the top. -/
theorem XorLinear.eq_of_twoPow {v w : Nat} {f g : BitVec v → BitVec w} (hf : XorLinear f) (hg : XorLinear g)
    (hbit : ∀ i < v, f (BitVec.twoPow v i) = g (BitVec.twoPow v i)) (x : BitVec v) : f x = g x := by
  suffices hbelow : ∀ n ≤ v, ∀ y : BitVec v, (∀ i, n ≤ i → y.getLsbD i = false) → f y = g y from
    hbelow v le_rfl x fun i => BitVec.getLsbD_of_ge x i
  intro n
  induction n with
  | zero =>
    intro _ y hy
    obtain rfl : y = 0#v := BitVec.eq_of_getLsbD_eq fun i _ => by simp [hy i]
    rw [hf.map_zero, hg.map_zero]
  | succ n ih =>
    intro hn y hy
    cases htop : y.getLsbD n with
    | false =>
      refine ih (by omega) y fun i hi => ?_
      rcases hi.eq_or_lt with rfl | hlt
      exacts [htop, hy i hlt]
    | true =>
      have hrest : f (y ^^^ BitVec.twoPow v n) = g (y ^^^ BitVec.twoPow v n) := by
        refine ih (by omega) _ fun i hi => ?_
        rcases hi.eq_or_lt with rfl | hlt
        · simp [htop, show n < v by omega]
        · simp [hy i hlt, hlt.ne]
      rwa [hf.map_xor, hg.map_xor, hbit n hn, BitVec.xor_left_inj] at hrest

/-! ### One step of the recurrence (R76, R81) -/

/-- What R76 makes of `x1`, the only part of a step that depends on the byte. -/
def crcMix (x1 : Byte) : Half :=
  let x : Half := (x1 ^^^ (x1 >>> 4)).setWidth 16
  (x <<< 12) ^^^ (x <<< 5) ^^^ x

/-- The recurrence taken in 16 bits: the bits that the shifts lose here are those that R76 discards at its end. -/
theorem crcStep_eq (a : Half) (b : Byte) : crcStep a b = (a <<< 8) ^^^ crcMix (hi a ^^^ b) := by
  simp only [crcStep, crcMix]
  generalize hi a ^^^ b = x1
  generalize x1 ^^^ (x1 >>> 4) = x2
  simp [BitVec.setWidth_shiftLeft_of_le, BitVec.setWidth_setWidth_of_le, BitVec.xor_assoc]

@[simp] theorem crcMix_zero : crcMix 0#8 = 0#16 := by decide

theorem crcMix_xor (x y : Byte) : crcMix (x ^^^ y) = crcMix x ^^^ crcMix y := by
  simp only [crcMix, BitVec.ushiftRight_xor_distrib, BitVec.setWidth_xor, BitVec.shiftLeft_xor_distrib]
  ac_rfl

theorem crcStep_xor (a1 a2 : Half) (b1 b2 : Byte) :
    crcStep (a1 ^^^ a2) (b1 ^^^ b2) = crcStep a1 b1 ^^^ crcStep a2 b2 := by
  simp only [crcStep_eq, hi_xor, crcMix_xor, BitVec.shiftLeft_xor_distrib]
  ac_rfl

/-- The byte enters a step where the accumulator's high byte does. -/
theorem crcStep_eq_crcStep_zero (a : Half) (b : Byte) : crcStep a b = crcStep (a ^^^ (b.setWidth 16 <<< 8)) 0 := by
  simp [crcStep_eq, BitVec.shiftLeft_xor_distrib, hi_xor, hi_shiftLeft_eight, shiftLeft_eight_eight]

/-- Settles O20: shifts and zero-extension are linear, and so is a step, which is made of them. -/
theorem crcStepIsLinear : Obligations.CrcStepIsLinear := ⟨crcStep_xor, crcStep_eq_crcStep_zero⟩

theorem xorLinear_crcStep_zero : XorLinear (crcStep · 0) := fun x y => crcStep_xor x y 0 0

/-! ### The checksum of a list (R77, R82, R83) -/

theorem crcStep_zero_zero : crcStep 0 0 = 0 := xorLinear_crcStep_zero.map_zero

theorem crc16_zero_cons (xs : List Byte) : crc16 (0 :: xs) = crc16 xs :=
  congrArg (xs.foldl crcStep ·) crcStep_zero_zero

theorem crc16_replicate_zero_append (k : Nat) (xs : List Byte) : crc16 (List.replicate k 0 ++ xs) = crc16 xs := by
  induction k with
  | zero => rfl
  | succ k ih => rw [List.replicate_succ, List.cons_append, crc16_zero_cons, ih]

/-- Settles O21: a leading zero byte leaves the accumulator at its start. -/
theorem checksumIgnoresLeadingZeros : Obligations.ChecksumIgnoresLeadingZeros :=
  ⟨crcStep_zero_zero, crc16_replicate_zero_append⟩

/-- A step on the accumulator's own high byte shifts that byte out and puts nothing in its place. -/
theorem crcStep_hi (a : Half) : crcStep a (hi a) = a <<< 8 := by
  simp [crcStep_eq]

theorem crcStep_hi_lo (a : Half) : crcStep (crcStep a (hi a)) (lo a) = 0 := by
  rw [crcStep_hi, ← hi_shiftLeft_eight, crcStep_hi]
  exact shiftLeft_eight_eight a

/-- Settles O22: the two bytes of the checksum shift it out of the accumulator. -/
theorem checksumResidueIsZero : Obligations.ChecksumResidueIsZero :=
  fun xs => (List.foldl_append ..).trans (crcStep_hi_lo (crc16 xs))

/-! ### The bit-serial update (R84) -/

/-- What one round adds to the shifted accumulator, by the bit that the shift loses. -/
def crcSerialFeedback (top : Bool) : Half := if top then 0x1021 else 0

theorem crcSerialRound_eq (a : Half) : crcSerialRound a = (a <<< 1) ^^^ crcSerialFeedback (a.getLsbD 15) := by
  unfold crcSerialRound crcSerialFeedback
  split <;> simp

theorem crcSerialFeedback_xor : ∀ p q : Bool,
    crcSerialFeedback (p ^^ q) = crcSerialFeedback p ^^^ crcSerialFeedback q := by
  decide

theorem xorLinear_crcSerialRound : XorLinear crcSerialRound := by
  intro x y
  simp only [crcSerialRound_eq, BitVec.getLsbD_xor, BitVec.shiftLeft_xor_distrib, crcSerialFeedback_xor]
  ac_rfl

theorem crcStep_twoPow : ∀ i < 16, crcStep (BitVec.twoPow 16 i) 0 = crcSerialRound^[8] (BitVec.twoPow 16 i) := by
  decide

theorem crcStep_zero_eq_rounds (a : Half) : crcStep a 0 = crcSerialRound^[8] a :=
  xorLinear_crcStep_zero.eq_of_twoPow (xorLinear_crcSerialRound.iterate 8) crcStep_twoPow a

theorem crcStep_eq_crcStepSerial (a : Half) (b : Byte) : crcStep a b = crcStepSerial a b :=
  (crcStep_eq_crcStep_zero a b).trans (crcStep_zero_eq_rounds _)

/-- Settles O23: both updates are linear in the accumulator with the byte folded in, and they agree on its 16 bits. -/
theorem crcStepEqualsTheBitSerialUpdate : Obligations.CrcStepEqualsTheBitSerialUpdate :=
  ⟨crcStep_eq_crcStepSerial, by decide⟩

/-! ### CRC_INIT and CRC_BYTE (R78, R79) -/

/-- The recurrence in unbounded numbers, reduced once at the end (R80). -/
theorem toNat_crcStep (a : Half) (b : Byte) :
    let x1 := (a.toNat >>> 8) ^^^ b.toNat
    let x2 := x1 ^^^ (x1 >>> 4)
    (crcStep a b).toNat = ((a.toNat <<< 8) ^^^ (x2 <<< 12) ^^^ (x2 <<< 5) ^^^ x2) % 2 ^ 16 := by
  rw [← Nat.mod_eq_of_lt (crcStep a b).isLt]
  simp only [crcStep_eq, crcMix, BitVec.toNat_xor, BitVec.toNat_shiftLeft, BitVec.toNat_ushiftRight, toNat_hi,
    BitVec.toNat_setWidth_of_le (show 8 ≤ 16 by decide), Nat.xor_mod_two_pow, Nat.mod_mod, Nat.xor_assoc]

theorem commandWord_crcByte (b : Byte) : commandWord 0x02 (b.setWidth 16) = 0x02000000 ||| b.setWidth 32 := by
  simp [commandWord]

theorem decode_crcByte (b : Byte) : decode (0x02000000 ||| b.setWidth 32) = .ok (.crcByte b) :=
  commandWord_crcByte b ▸ decodeReadsBackEveryCommand (.crcByte b)

/-- Settles O8: CRC_BYTE writes one step of the recurrence, and nothing else is written by either command. -/
theorem crcCommandsChangeOnlyTheAccumulator : Obligations.CrcCommandsChangeOnlyTheAccumulator :=
  ⟨decodeReadsBackEveryCommand .crcInit, decode_crcByte, fun _ => ExecCase.crcInit.exec_eq,
    fun b s => ⟨_, (ExecCase.crcByte b).exec_eq, toNat_crcStep s.crcAcc b⟩⟩

end Sys2Proof.Machine

/-! PROOFS. The byte-stuffing encoder and decoder (41_stuffing.md): what their commands do, which state they touch, and
the laws of the wire form. -/

namespace Sys2Proof.Machine

/-! ### The encoder's and the decoder's commands (R91 to R93, R95, R96) -/

theorem commandWord_byte (op b : Byte) :
    commandWord op (b.setWidth 16) = (op.setWidth 32 <<< 24) ||| b.setWidth 32 := by
  simp [commandWord]

/-- A B-form command has the word of its opcode and its byte, with nothing between them. -/
theorem decode_byteWord (op : Byte) {k : Byte → Instr} (hk : ∀ b, encode (k b) = commandWord op (b.setWidth 16))
    (b : Byte) : decode ((op.setWidth 32 <<< 24) ||| b.setWidth 32) = .ok (k b) := by
  rw [← commandWord_byte, ← hk]
  exact decodeReadsBackEveryCommand (k b)

/-- Settles O9: neither command escapes its byte, and each reads `tx_open` for the flag before it writes it. -/
theorem txFirstAndTxLastEmitUnescaped : Obligations.TxFirstAndTxLastEmitUnescaped :=
  fun b _ => ⟨decode_byteWord 0x10 (fun _ => rfl) b, decode_byteWord 0x12 (fun _ => rfl) b,
    (ExecCase.txFirst b).exec_eq, (ExecCase.txLast b).exec_eq⟩

/-- Settles O10: the byte is emitted by `enc`, whose values on the five reserved bytes are the table of R89. -/
theorem txBodyEmitsEscaped : Obligations.TxBodyEmitsEscaped := by
  intro b s
  refine ⟨decode_byteWord 0x11 (fun _ => rfl) b, enc b, (ExecCase.txBody b).exec_eq, ?_, ?_, ?_, ?_, ?_, enc_of_not_mem⟩
  all_goals
    rintro rfl
    decide

/-- Settles O11: each case of the scan is a case of the command. -/
theorem decoderCommandsFollowTheScan : Obligations.DecoderCommandsFollowTheScan := by
  refine ⟨fun b s => ⟨decode_byteWord 0x18 (fun _ => rfl) b, fun hesc => ?_, fun hesc hb => ?_, fun hesc hb => ?_⟩,
    decodeReadsBackEveryCommand .dsEnd, fun _ => ExecCase.dsEnd.exec_eq⟩
  · exact (ExecCase.dsEscaped b hesc).exec_eq
  · exact hb ▸ (ExecCase.dsMarker hesc).exec_eq
  · exact (ExecCase.dsPlain b hesc hb).exec_eq

/-! ### The units share no state (R100) -/

/-- The units that R100 tells apart; BUILD_REQ runs the encoder. -/
inductive CodecUnit where
  | encoder | decoder | frameReader | other

/-- The unit that a command runs. -/
def unitOf : Instr → CodecUnit
  | .txFirst _ | .txBody _ | .txLast _ | .buildReq _ => .encoder
  | .dsByte _ | .dsEnd => .decoder
  | .rxArm | .rxByte _ | .rxTimeout => .frameReader
  | .nop | .crcInit | .crcByte _ | .setExpid _ => .other

theorem ExecCase.decoder_unchanged {s t : State} {i : Instr} (h : ExecCase s i t) (hi : unitOf i ≠ .decoder) :
    t.dsEsc = s.dsEsc ∧ t.dsLast = s.dsLast ∧ t.dsValid = s.dsValid ∧ t.dsOut = s.dsOut
      ∧ t.errDstrunc = s.errDstrunc := by
  cases h with
  | dsEscaped | dsMarker | dsPlain | dsEnd => exact absurd rfl hi
  | _ => simp

theorem ExecCase.encoder_unchanged {s t : State} {i : Instr} (h : ExecCase s i t) (hi : unitOf i ≠ .encoder) :
    t.txOpen = s.txOpen ∧ t.txOut = s.txOut ∧ t.errTxseq = s.errTxseq := by
  cases h with
  | txFirst | txBody | txLast | buildReq => exact absurd rfl hi
  | _ => simp

theorem ExecCase.frameReader_unchanged {s t : State} {i : Instr} (h : ExecCase s i t) (hi : unitOf i ≠ .frameReader) :
    t.rxState = s.rxState ∧ t.raw = s.raw ∧ t.plain = s.plain ∧ t.parsed = s.parsed
      ∧ t.errRxdrop = s.errRxdrop ∧ t.evtRxdone = s.evtRxdone := by
  cases h with
  | rxArm | rxDrop | rxSkip | rxStart | rxTerm | rxFull | rxStore | timeoutIgnored | timeoutSync | timeoutCollect =>
    exact absurd rfl hi
  | _ => simp

/-- Settles O29: the commands of each clause run no unit whose state the clause keeps. -/
theorem encoderAndDecoderShareNoState : Obligations.EncoderAndDecoderShareNoState := by
  intro i s t hexec
  have hcase := exec_cases hexec
  refine ⟨fun hi => hcase.decoder_unchanged ?_, fun hi => hcase.encoder_unchanged ?_,
    fun hi => hcase.frameReader_unchanged ?_⟩
  · rcases hi with ⟨b, rfl⟩ | ⟨b, rfl⟩ | ⟨b, rfl⟩ | ⟨v, rfl⟩ | rfl | ⟨b, rfl⟩ | rfl <;> simp [unitOf]
  · rcases hi with ⟨b, rfl⟩ | rfl | rfl | ⟨b, rfl⟩ | rfl <;> simp [unitOf]
  · rcases hi with ⟨b, rfl⟩ | ⟨b, rfl⟩ | ⟨b, rfl⟩ | ⟨v, rfl⟩ | ⟨b, rfl⟩ | rfl <;> simp [unitOf]

/-! ### The round trip (R98) -/

/-- After an end byte that is no marker the interior is read back whole, so only the last byte can go wrong. -/
theorem destuff_stuff {first : Byte} (hfirst : first ≠ esc) (interior : List Byte) (last : Byte) :
    destuff (stuff first interior last) = (first :: interior ++ (destuff [last]).1, (destuff [last]).2) := by
  rw [stuff, List.cons_append, destuff_plain hfirst, destuff_interior_append, List.cons_append]

theorem destuff_singleton_eq_iff (b : Byte) : destuff [b] = ([b], false) ↔ b ≠ esc := by
  by_cases hb : b = esc
  · simp [hb]
  · simp [destuff_plain hb, hb]

/-- A marker in first position takes the next wire byte as escaped: the first byte read back is wrong where that byte
is a marker too, and a byte is missing where it is not. -/
theorem destuff_stuff_marker_ne (interior : List Byte) (last : Byte) :
    destuff (stuff esc interior last) ≠ (esc :: interior ++ [last], false) := by
  cases interior with
  | nil => simp [stuff, destuff_marker]
  | cons b bs =>
    by_cases hb : b ∈ reserved
    · simp [stuff, enc_of_mem hb, destuff_marker]
    · intro h
      have hlen := congrArg (·.1.length) h
      have hlast := destuff_length_le [last]
      simp [stuff, enc_of_not_mem hb, destuff_marker, destuff_interior_append] at hlen hlast
      omega

/-- Settles O25: a first byte that is no marker leaves the round trip to the last byte, and one that is a marker breaks
it. -/
theorem destuffUndoesStuffUnlessAnEndIsTheMarker : Obligations.DestuffUndoesStuffUnlessAnEndIsTheMarker := by
  intro first interior last
  by_cases hfirst : first = esc
  · subst hfirst
    exact iff_of_false (destuff_stuff_marker_ne interior last) fun h => h.1 rfl
  · calc destuff (stuff first interior last) = (first :: interior ++ [last], false)
      _ ↔ destuff [last] = ([last], false) := by simp [destuff_stuff hfirst, Prod.ext_iff]
      _ ↔ last ≠ esc := destuff_singleton_eq_iff last
      _ ↔ first ≠ esc ∧ last ≠ esc := (and_iff_right hfirst).symm

/-! ### The wire form (R99) -/

/-- No sentinel of R89 is itself reserved. -/
theorem sentinel_notMem_reserved : ∀ b ∈ reserved, b ^^^ 0xFF ∉ reserved := by decide

/-- The marker is the only reserved byte inside a wire frame. -/
theorem eq_esc_of_mem_wire {interior : List Byte} {x : Byte} (hx : x ∈ interior.flatMap enc) (hr : x ∈ reserved) :
    x = esc := by
  obtain ⟨b, -, hxb⟩ := List.mem_flatMap.1 hx
  by_cases hb : b ∈ reserved
  · rw [enc_of_mem hb, List.mem_pair] at hxb
    exact hxb.resolve_right fun h => sentinel_notMem_reserved b hb (h ▸ hr)
  · rw [enc_of_not_mem hb, List.mem_singleton] at hxb
    exact absurd (hxb ▸ hr) hb

/-- A marker inside a wire frame is followed by the sentinel of a reserved byte. -/
theorem sentinel_after_marker (interior : List Byte) {i : Nat} (h : (interior.flatMap enc)[i]? = some esc) :
    ∃ b ∈ reserved, (interior.flatMap enc)[i + 1]? = some (b ^^^ 0xFF) := by
  induction interior generalizing i with
  | nil => simp at h
  | cons b bs ih =>
    by_cases hb : b ∈ reserved
    · rw [List.flatMap_cons, enc_of_mem hb] at h ⊢
      match i with
      | 0 => exact ⟨b, hb, rfl⟩
      | 1 =>
        have hsentinel : b ^^^ 0xFF = esc := by simpa using h
        exact absurd (hsentinel ▸ esc_mem_reserved) (sentinel_notMem_reserved b hb)
      | i + 2 => exact ih h
    · rw [List.flatMap_cons, enc_of_not_mem hb] at h ⊢
      match i with
      | 0 =>
        have hmarker : b = esc := by simpa using h
        exact absurd (hmarker ▸ esc_mem_reserved) hb
      | i + 1 => exact ih h

theorem token_mem_reserved : ∀ x ∈ [0x06#8, 0x0D#8, 0x40#8, 0x80#8], x ∈ reserved ∧ x ≠ esc := by decide

theorem notMem_tokens_of_mem_wire {interior : List Byte} {x : Byte} (hx : x ∈ interior.flatMap enc) :
    x ∉ [0x06#8, 0x0D#8, 0x40#8, 0x80#8] := by
  intro htoken
  obtain ⟨hr, hne⟩ := token_mem_reserved x htoken
  exact hne (eq_esc_of_mem_wire hx hr)

/-- The sentinel column of the table of R89. -/
theorem xor_mem_sentinels : ∀ b ∈ reserved, b ^^^ 0xFF ∈ [0xF9#8, 0xF2#8, 0xE4#8, 0xBF#8, 0x7F#8] := by decide

theorem length_stuff (first : Byte) (interior : List Byte) (last : Byte) :
    (stuff first interior last).length = (interior.flatMap enc).length + 2 := by
  simp [stuff]

/-- A byte of a wire frame is its first, its last, or one of its wire interior. -/
theorem stuff_getElem?_cases {first last x : Byte} {interior : List Byte} {i : Nat}
    (h : (stuff first interior last)[i]? = some x) :
    (i = 0 ∧ x = first) ∨ (i + 1 = (stuff first interior last).length ∧ x = last) ∨ x ∈ interior.flatMap enc := by
  cases i with
  | zero => exact .inl ⟨rfl, by simpa [stuff, eq_comm] using h⟩
  | succ k =>
    rw [stuff, List.cons_append, List.getElem?_cons_succ] at h
    rcases lt_or_ge k (interior.flatMap enc).length with hlt | hge
    · rw [List.getElem?_append_left hlt] at h
      exact .inr (.inr (List.mem_of_getElem? h))
    · rw [List.getElem?_append_right hge, List.getElem?_singleton] at h
      obtain ⟨hk, rfl⟩ : k - (interior.flatMap enc).length = 0 ∧ last = x := by simpa using h
      exact .inr (.inl ⟨by rw [length_stuff]; omega, rfl⟩)

/-- Settles O26: the wire interior holds no reserved byte but the marker, so that a token can stand at an end alone. -/
theorem wireFrameKeepsTokensAtItsEnds : Obligations.WireFrameKeepsTokensAtItsEnds := by
  refine ⟨fun interior => ⟨fun x => notMem_tokens_of_mem_wire, fun i hmarker => ?_⟩,
    fun first interior i x hfirst hx => ?_⟩
  · obtain ⟨b, hb, hnext⟩ := sentinel_after_marker interior hmarker
    exact ⟨_, hnext, xor_mem_sentinels b hb⟩
  · rcases stuff_getElem?_cases hx with ⟨hi, rfl⟩ | ⟨hi, rfl⟩ | hmem
    · have hne : x ≠ 0x0D := by rcases hfirst with rfl | rfl <;> decide
      exact ⟨fun _ => hi, fun hend => absurd hend hne⟩
    · exact ⟨fun htoken => absurd htoken (by decide), fun _ => hi⟩
    · have htokens := notMem_tokens_of_mem_wire hmem
      simp only [List.mem_cons, not_or] at htokens
      obtain ⟨-, hend, hrsp, hreq, -⟩ := htokens
      exact ⟨by simp [hrsp, hreq], by simp [hend]⟩

end Sys2Proof.Machine

/-! PROOFS. The request framer and the parser's setup (42_request.md): the bytes of a request, its wire form, and what
the two commands do. -/

namespace Sys2Proof.Machine

/-! ### The plain request (R101) -/

/-- The bytes of a 16-bit value, high byte first, make it up again (R8). -/
theorem hi_append_lo (v : Half) : hi v ++ lo v = v := by
  rw [← be16_eq_append, be16_hi_lo]

/-- Settles O30: the last two bytes before the end token are those of the body's checksum, which leaves residue 0. -/
theorem requestFrameLayout : Obligations.RequestFrameLayout :=
  fun v => ⟨hi v, lo v, hi (crc16 (reqBody v)), lo (crc16 (reqBody v)), rfl, hi_append_lo v, hi_append_lo _,
    checksumResidueIsZero (reqBody v)⟩

/-! ### The length of its wire form (R103) -/

theorem length_enc (b : Byte) : (enc b).length = 1 + if b ∈ reserved then 1 else 0 := by
  unfold enc
  split <;> rfl

/-- Each reserved byte of an interior takes one byte more on the wire. -/
theorem length_flatMap_enc (interior : List Byte) :
    (interior.flatMap enc).length = interior.length + interior.countP (· ∈ reserved) := by
  induction interior with
  | nil => rfl
  | cons b bs ih =>
    simp only [List.flatMap_cons, List.length_append, length_enc, ih, List.length_cons, List.countP_cons,
      decide_eq_true_eq]
    omega

/-- Offsets 4 to 7 of a request: the id and the checksum. -/
theorem reqInterior_eq_append (v : Half) :
    reqInterior v = [addrByte, cmdRtype, reqB3] ++ ((reqFrame v).drop 4).take 4 := rfl

theorem length_reqWire (v : Half) :
    (reqWire v).length = 9 + (((reqFrame v).drop 4).take 4).countP (· ∈ reserved) := by
  have hfixed : [addrByte, cmdRtype, reqB3].countP (· ∈ reserved) = 0 := by decide
  have hlen : (reqInterior v).length = 7 := rfl
  rw [reqWire, length_stuff, length_flatMap_enc, hlen, reqInterior_eq_append, List.countP_append, hfixed]
  omega

/-- Settles O31: the three fixed bytes of the interior are not reserved, so that only the other four can be escaped. -/
theorem stuffedRequestLength : Obligations.StuffedRequestLength := by
  refine ⟨fun v => ?_, by decide, by decide⟩
  have hmost : (((reqFrame v).drop 4).take 4).countP (· ∈ reserved) ≤ 4 := List.countP_le_length
  have hlen := length_reqWire v
  exact ⟨hlen, by omega, by omega⟩

/-! ### SET_EXPID and BUILD_REQ (R104, R105) -/

theorem State.writeRegister_expVarid_setWidth (s : State) (v : Half) :
    s.writeRegister (some .expVarid) (v.setWidth 32) = { s with expVarid := v } := by
  simp [State.writeRegister]

/-- Settles O12: EXP_VARID takes the low half of the word written, which is the operand again. -/
theorem setExpidSetsOnlyTheExpectedId : Obligations.SetExpidSetsOnlyTheExpectedId :=
  fun v s => ⟨decodeReadsBackEveryCommand (.setExpid v), (ExecCase.setExpid v).exec_eq,
    congrArg _ (s.writeRegister_expVarid_setWidth v).symm⟩

/-- Settles O13: the bytes that REQ_CRC takes from the frame are those of the body's checksum. -/
theorem buildReqEmitsTheStuffedRequest : Obligations.BuildReqEmitsTheStuffedRequest := by
  intro v s
  refine ⟨decodeReadsBackEveryCommand (.buildReq v), hi (crc16 (reqBody v)), lo (crc16 (reqBody v)), hi_append_lo _, ?_⟩
  rw [← be16_eq_append]
  exact (ExecCase.buildReq v).exec_eq

/-! ### The round trip (R106) -/

theorem destuff_reqWire (v : Half) : destuff (reqWire v) = (reqFrame v, false) :=
  (destuffUndoesStuffUnlessAnEndIsTheMarker reqStart (reqInterior v) frameEnd).2 (by decide)

theorem rspStart_notMem_reqWire (v : Half) : rspStart ∉ reqWire v := by
  have hinterior : rspStart ∉ (reqInterior v).flatMap enc := fun h => notMem_tokens_of_mem_wire h (by decide)
  have hends : rspStart ≠ reqStart ∧ rspStart ≠ frameEnd := by decide
  simp [reqWire, stuff, hinterior, hends]

/-- In SYNC the reader discards bytes until the start token of a response. -/
theorem execAll_rxBytes_of_sync {s : State} (hphase : s.rxState = .sync) {bytes : List Byte} (h : rspStart ∉ bytes) :
    execAll (bytes.map .rxByte) s = .next s := by
  induction bytes with
  | nil => rfl
  | cons b bs ih =>
    obtain ⟨hb, hbs⟩ := not_or.1 (List.mem_cons.not.1 h)
    rw [List.map_cons, execAll_cons (ExecCase.rxSkip b hphase (Ne.symm hb)).exec_eq, ih hbs]

/-- Settles O32: neither end of a request is the marker, and no byte of its wire form starts a response. -/
theorem requestSurvivesItsRoundTrip : Obligations.RequestSurvivesItsRoundTrip := by
  intro v s hesc
  refine ⟨_, reqWire v, _, _, (ExecCase.buildReq v).exec_eq, rfl, rfl, execAll_dsBytes_dsEnd (reqWire v) hesc,
    by simp [destuff_reqWire], by simp [destuff_reqWire],
    fun r hphase => execAll_rxBytes_of_sync hphase (rspStart_notMem_reqWire v)⟩

end Sys2Proof.Machine

/-! PROOFS. The frame reader and the frame parser (43_frame_parser.md): what their commands do, what decides the result
code of a frame, and what the reader makes of a response that is well formed. -/

namespace Sys2Proof.Machine

/-! ### RX_ARM, RX_BYTE and RX_TIMEOUT (R109 to R111) -/

/-- Settles O14: every part of the cleared results is 0. -/
theorem rxArmClearsAndSynchronises : Obligations.RxArmClearsAndSynchronises :=
  ⟨decodeReadsBackEveryCommand .rxArm, fun _ => ExecCase.rxArm.exec_eq⟩

/-- Settles O15: each clause is a case of the command. -/
theorem rxByteFollowsThePhase : Obligations.RxByteFollowsThePhase := by
  refine fun b s => ⟨decode_byteWord 0x21 (fun _ => rfl) b, fun hphase => ?_, fun hphase hb => ?_, fun hphase hb => ?_,
    fun hphase hb => ?_, fun hphase hb hlen => ?_, fun hphase hb hlen => ?_⟩
  · exact (ExecCase.rxDrop b hphase).exec_eq
  · exact (ExecCase.rxSkip b hphase hb).exec_eq
  · subst hb
    exact (ExecCase.rxStart hphase).exec_eq
  · exact hb ▸ (ExecCase.rxTerm hphase).exec_eq
  · exact (ExecCase.rxFull b hphase hb hlen).exec_eq
  · exact (ExecCase.rxStore b hphase hb hlen).exec_eq

/-- Settles O16: each clause is a case of the command. -/
theorem rxTimeoutEndsCollection : Obligations.RxTimeoutEndsCollection :=
  ⟨decodeReadsBackEveryCommand .rxTimeout, fun _ => ⟨fun hphase => (ExecCase.timeoutIgnored hphase).exec_eq,
    fun hphase => (ExecCase.timeoutSync hphase).exec_eq, fun hphase => (ExecCase.timeoutCollect hphase).exec_eq⟩⟩

/-! ### What decides the result code (R121) -/

/-- Settles O18: the gates of the code, the first of which fails on the empty plain frame alone. -/
theorem resultCodeIsTheFirstDecidingGate : Obligations.ResultCodeIsTheFirstDecidingGate := by
  intro s e t f
  obtain ⟨-, -, -, -, -, hcode⟩ := parseFrame_base s.params s.expVarid e s.raw
  exact (hcode.trans (resultCode_eq _ f)).trans (if_congr List.length_eq_zero_iff rfl rfl)

/-- The code of a frame that holds every field, of which `front` is all but the last three bytes: the first check of
the header that fails (R117, R118, R121). -/
def headerCode (v : Half) (front : List Byte) : RxCode :=
  if byteAt front 1 ≠ addrByte ∨ byteAt front 2 ≠ cmdRtype ∨ byteAt front 3 ++ byteAt front 4 ≠ v then .structErr
  else if 64 < (byteAt front 5).toNat then .unitErr
  else .ok

theorem byteAt_append_left {xs : List Byte} {i : Nat} (h : i < xs.length) (ys : List Byte) :
    byteAt (xs ++ ys) i = byteAt xs i := by
  simp [byteAt, List.getElem?_append_left h]

theorem byteAt_append_length_add (xs ys : List Byte) (i : Nat) : byteAt (xs ++ ys) (xs.length + i) = byteAt ys i := by
  simp [byteAt, List.getElem?_append_right]

/-- The results of a frame that holds every field, by its checksum field `c`, `d`, its last byte `z` and the bytes
before them (R113 to R121). Such a frame is not the sentinel, and its code does not depend on the last three bytes. -/
theorem parseFrame_of_append {params : Params} {v : Half} {e : RxEnd} {raw front : List Byte} {c d z : Byte}
    (hp : (destuff raw).1 = front ++ [c, d, z]) (hfront : 6 ≤ front.length) :
    parseFrame params v e raw = {
      rxEnd := e
      rxCode := headerCode v front
      rxFlags := {
        trunc := (destuff raw).2
        sent := false
        fv := true
        crcBad := c ++ d != crc16 (front.drop 1)
        addrErr := byteAt front 1 != addrByte
        typeErr := byteAt front 2 != cmdRtype
        vidErr := byteAt front 3 ++ byteAt front 4 != v
        unitErr := unitErrFlag (byteAt front 5)
        tailErr := z != frameEnd }
      fAddr := byteAt front 1
      fType := byteAt front 2
      fVarid := byteAt front 3 ++ byteAt front 4
      fUnit := byteAt front 5
      fCrcField := c ++ d
      fCrcCalc := crc16 (front.drop 1)
      fPlLen := len9 (front.length - 6) } := by
  have hfv : fvFlag (front ++ [c, d, z]) = true := (fvFlag_iff _).2 (by simp [hfront])
  have hsent : sentFlag params.sentinel (front ++ [c, d, z]) = false :=
    Bool.eq_false_iff.2 fun h => not_sentFlag_and_fvFlag _ _ ⟨h, hfv⟩
  have htail : tailErrFlag (front ++ [c, d, z]) = (z != frameEnd) := by
    simpa using tailErrFlag_append (front ++ [c, d]) z
  have hbyte {i : Nat} (hi : i < 6) : byteAt (front ++ [c, d, z]) i = byteAt front i :=
    byteAt_append_left (hi.trans_le hfront) _
  have hc : byteAt (front ++ [c, d, z]) front.length = c := byteAt_append_length_add front _ 0
  have hd : byteAt (front ++ [c, d, z]) (front.length + 1) = d := byteAt_append_length_add front _ 1
  have hspan : slice (front ++ [c, d, z]) 1 front.length = front.drop 1 := by
    rw [slice, List.drop_append_of_le_length (by omega), List.take_left' (by simp)]
  simp [parseFrame, extractFields, resultCode_eq, headerCode, hp, hfv, hsent, htail, hbyte, hc, hd, hspan,
    be16_eq_append, unitErrFlag_iff, ParseResults.clear, RxFlags.clear]

/-- Settles O19: the code is a function of the bytes before the last three. -/
theorem checksumAndEndTokenNeverDecideTheCode : Obligations.ChecksumAndEndTokenNeverDecideTheCode := by
  intro p v e e' raw raw' front c d z c' d' z' hp hp' hfront
  rw [parseFrame_of_append hp hfront, parseFrame_of_append hp' hfront]

/-! ### A marker at the end of a raw frame (R123) -/

/-- A marker escapes an end token that follows it, so that no plain byte is the end token. -/
theorem destuff_append_marker_frameEnd {front : List Byte} (h : (destuff front).2 = false) :
    destuff (front ++ [esc] ++ [frameEnd]) = ((destuff front).1 ++ [0xF2], false) := by
  rw [List.append_assoc, destuff_append front _ h]
  rfl

theorem destuff_append_marker {front : List Byte} (h : (destuff front).2 = false) :
    destuff (front ++ [esc]) = ((destuff front).1, true) := by
  simp [destuff_append front _ h]

/-- Settles O34: the plain bytes and TRUNC are those of `destuff`, and F2 is no end token. -/
theorem markerAtTheEndOfARawFrame : Obligations.MarkerAtTheEndOfARawFrame := by
  intro s front hphase hwhole hraw
  refine ⟨⟨_, (ExecCase.rxTerm hphase).exec_eq, ?_⟩, ⟨_, (ExecCase.timeoutCollect hphase).exec_eq, ?_⟩⟩
  · have hdestuff : destuff (s.raw ++ [frameEnd]) = ((destuff front).1 ++ [0xF2], false) :=
      hraw ▸ destuff_append_marker_frameEnd hwhole
    obtain ⟨hend, htrunc, -, -, htail, -⟩ := parseFrame_base s.params s.expVarid .term (s.raw ++ [frameEnd])
    rw [hdestuff] at htrunc htail
    exact ⟨hend, congrArg Prod.fst hdestuff, htail.trans (tailErrFlag_append _ _), htrunc⟩
  · have hdestuff : destuff s.raw = ((destuff front).1, true) :=
      (congrArg destuff hraw).trans (destuff_append_marker hwhole)
    obtain ⟨hend, htrunc, -⟩ := parseFrame_base s.params s.expVarid .tmoCollect s.raw
    exact ⟨hend, by simp [hdestuff], htrunc.trans (congrArg Prod.snd hdestuff)⟩

/-! ### A response is collected (R109, R110, R112) -/

/-- In COLLECT the reader stores every byte while there is no end token and the buffer does not get full. -/
theorem execAll_rxBytes_of_collect {bytes : List Byte} (hend : frameEnd ∉ bytes) {s : State}
    (hphase : s.rxState = .collect) (hlen : s.raw.length + bytes.length < s.params.rxMax) :
    execAll (bytes.map .rxByte) s = .next { s with raw := s.raw ++ bytes } := by
  induction bytes generalizing s with
  | nil => simp [execAll]
  | cons b bs ih =>
    obtain ⟨hb, hbs⟩ := not_or.1 (List.mem_cons.not.1 hend)
    rw [List.length_cons] at hlen
    have hstore := (ExecCase.rxStore b hphase (Ne.symm hb) (by omega)).exec_eq
    have hroom : (s.raw ++ [b]).length + bs.length < s.params.rxMax := by
      rw [List.length_append, List.length_singleton]
      omega
    rw [List.append_cons]
    exact (execAll_cons hstore _).trans (ih hbs (s := { s with raw := s.raw ++ [b] }) hphase hroom)

/-- After RX_ARM the start token begins a collection. -/
theorem execAll_rxArm_rspStart (is : List Instr) (s : State) :
    execAll (.rxArm :: .rxByte rspStart :: is) s =
      execAll is { s with rxState := .collect, raw := [rspStart], plain := [], parsed := .clear } :=
  (execAll_cons ExecCase.rxArm.exec_eq _).trans (execAll_cons (ExecCase.rxStart rfl).exec_eq is)

/-- RX_ARM and a wire frame that fits the buffer: no byte of the interior ends the collection; the end token does. -/
theorem execAll_recv_stuff (interior : List Byte) {s : State}
    (hlen : (stuff rspStart interior frameEnd).length ≤ s.params.rxMax) :
    execAll (.rxArm :: (stuff rspStart interior frameEnd).map .rxByte) s =
      .next (({ s with
        rxState := .collect, raw := stuff rspStart interior frameEnd, plain := [], parsed := .clear } : State).finish
          .term) := by
  have hend : frameEnd ∉ interior.flatMap enc := fun h => notMem_tokens_of_mem_wire h (by decide)
  have hroom : 1 + (interior.flatMap enc).length < s.params.rxMax := by
    rw [length_stuff] at hlen
    omega
  rw [stuff, List.cons_append, List.map_cons, List.map_append, execAll_rxArm_rspStart]
  refine (execAll_append (execAll_rxBytes_of_collect hend rfl ?_) _).trans
    (execAll_cons (ExecCase.rxTerm rfl).exec_eq [])
  exact hroom

/-! ### A response is parsed (R113 to R121) -/

/-- The bytes of a response that its checksum covers: the header after the start token, and the payload (R113). -/
def rspBody (v : Half) (unit : Byte) (payload : List Byte) : List Byte :=
  [addrByte, cmdRtype, hi v, lo v, unit] ++ payload

/-- The interior of a response: those bytes and their checksum, high byte first (R113). -/
def rspInterior (v : Half) (unit : Byte) (payload : List Byte) : List Byte :=
  let c := crc16 (rspBody v unit payload)
  rspBody v unit payload ++ [hi c, lo c]

/-- The results of a well-formed response that the end token ended: code OK, and of the flags FV alone. -/
def rspResults (v : Half) (unit : Byte) (payload : List Byte) : ParseResults where
  rxEnd     := .term
  rxCode    := .ok
  rxFlags   := { RxFlags.clear with fv := true }
  fAddr     := addrByte
  fType     := cmdRtype
  fVarid    := v
  fUnit     := unit
  fCrcField := crc16 (rspBody v unit payload)
  fCrcCalc  := crc16 (rspBody v unit payload)
  fPlLen    := len9 payload.length

/-- A well-formed response passes every check. -/
theorem parseFrame_response (params : Params) (v : Half) {unit : Byte} (hunit : unit.toNat ≤ 64)
    {payload raw : List Byte} (hraw : destuff raw = (rspStart :: rspInterior v unit payload ++ [frameEnd], false)) :
    parseFrame params v .term raw = rspResults v unit payload := by
  have hp : (destuff raw).1 = (rspStart :: rspBody v unit payload) ++ [hi (crc16 (rspBody v unit payload)),
      lo (crc16 (rspBody v unit payload)), frameEnd] := by simp [hraw, rspInterior]
  have hfront : 6 ≤ (rspStart :: rspBody v unit payload).length := by simp [rspBody]
  have hunitErr : unitErrFlag unit = false := Bool.eq_false_iff.2 fun h => by
    have := (unitErrFlag_iff unit).1 h
    omega
  rw [parseFrame_of_append hp hfront, hi_append_lo]
  simp [hraw, headerCode, rspResults, rspBody, RxFlags.clear, byteAt, hi_append_lo, hunit, hunitErr]

/-- Settles O33: the wire form is collected whole, de-stuffs to the response, and passes every check. -/
theorem readerAcceptsEveryWellFormedResponse : Obligations.ReaderAcceptsEveryWellFormedResponse := by
  intro s unit payload hunit inner c interior wire hlen
  have hdestuff : destuff wire = (rspStart :: interior ++ [frameEnd], false) :=
    (destuffUndoesStuffUnlessAnEndIsTheMarker rspStart interior frameEnd).2 (by decide)
  have hparse : parseFrame s.params s.expVarid .term wire = rspResults s.expVarid unit payload :=
    parseFrame_response s.params s.expVarid hunit hdestuff
  refine ⟨_, rfl, (execAll_recv_stuff interior hlen).trans ?_⟩
  show Host.Outcome.next { s with
    rxState := .done, raw := wire, plain := (destuff wire).1
    parsed := parseFrame s.params s.expVarid .term wire, evtRxdone := true } = _
  rw [hdestuff, hparse]
  rfl

end Sys2Proof.Machine

/-! PROOFS. The control command (44_control.md): NOP does nothing, and it has one word. -/

namespace Sys2Proof.Machine

/-- A legal word whose opcode takes no operand is that opcode with every other bit zero (R67). -/
theorem eq_commandWord_of_legal_none {w : Word} (hform : formOf (opField w) = some .none) (h : legal w = true) :
    w = commandWord (opField w) 0 := by
  obtain ⟨-, hrsv, hnone, -⟩ := (legal_iff w).1 h
  rw [← hnone hform, commandWord_fields w hrsv]

/-- Settles O7: NOP's opcode takes no operand, so its one legal word is the word of zeros. -/
theorem nopLeavesTheStateUnchanged : Obligations.NopLeavesTheStateUnchanged := by
  refine ⟨decodeReadsBackEveryCommand .nop, fun _ => ExecCase.nop.exec_eq,
    fun w (hop : opField w = 0x00#8) hne => ?_⟩
  refine Bool.eq_false_iff.2 fun hlegal => hne ?_
  calc w = commandWord (opField w) 0 := eq_commandWord_of_legal_none (by rw [hop]; decide) hlegal
    _ = 0 := by rw [hop]; decide

end Sys2Proof.Machine

/-! PROOFS. The exceptions (60_exceptions.md): an illegal command, a bus error, and that nothing but an access during
reset leaves a step without a next state. -/

namespace Sys2Proof.Machine

/-! ### An illegal command (R68, R133) -/

/-- The decoder refuses exactly the words that are not legal (R67). -/
theorem exists_decode_error_iff (w : Word) : (∃ e, decode w = .error e) ↔ legal w = false := by
  rw [← Bool.not_eq_true, ← exists_decode_iff_legal]
  cases decode w <;> simp

/-- An illegal word sets ERR_ILLEGAL and runs no command (R68). -/
theorem runCommand_of_illegal {w : Word} (h : legal w = false) (s : State) :
    runCommand w s = .next s.setErrIllegal := by
  obtain ⟨e, he⟩ := (exists_decode_error_iff w).2 h
  simp [runCommand, he]

/-- Settles O5: the write to CMD runs no command, and it completes. -/
theorem illegalCommandSetsOnlyErrIllegal : Obligations.IllegalCommandSetsOnlyErrIllegal := by
  intro s w rest hfaces hillegal
  calc step s = memWrite 0x000 4 w (s.withPending rest) := step_of_faces hfaces
    _ = withResponse .completed (runCommand w (s.withPending rest)) := memWrite_cmd w _
    _ = withResponse .completed (.next (s.withPending rest).setErrIllegal) := by rw [runCommand_of_illegal hillegal]

/-! ### A bus error (R55, R132) -/

theorem accessOk_eq_false {addr : RegAddr} {n : Nat} (h : n ≠ 4 ∨ addr.toNat % 4 ≠ 0) : accessOk addr n = false := by
  rw [← Bool.not_eq_true, accessOk_iff]
  omega

theorem State.memRead_bad (s : State) {addr : RegAddr} {n : Nat} (hbad : accessOk addr n = false) :
    s.memRead addr n = .busError addr := by
  simp [State.memRead, hbad]

/-- Settles O49: the bus refuses a read and a write by the same check, and each only records the error. -/
theorem badAccessIsABusErrorWithNoEffect : Obligations.BadAccessIsABusErrorWithNoEffect := by
  intro s a rest addr n hfaces haccess hwidth
  have hbad : accessOk addr n = false := accessOk_eq_false hwidth
  rw [step_of_faces hfaces]
  rcases haccess with rfl | ⟨v, rfl⟩
  · calc runAccess (.read addr n) (s.withPending rest)
        = .next ((s.withPending rest).respond ((s.withPending rest).memRead addr n)) := rfl
      _ = .next ((s.withPending rest).respond (.busError addr)) := by rw [State.memRead_bad _ hbad]
  · exact memWrite_bad hbad v _

/-! ### Every accepted event has a next state (R130, R146) -/

theorem withResponse_completes (r : Response) {o : Host.Outcome State Fault Refusal} (h : ∃ u, o = .next u) :
    ∃ t, withResponse r o = .next t := by
  obtain ⟨u, rfl⟩ := h
  exact ⟨u.respond r, rfl⟩

/-- A word written to CMD runs a command, which completes, or is illegal, which is no stop. -/
theorem runCommand_completes (w : Word) (s : State) : ∃ t, runCommand w s = .next t := by
  cases hlegal : legal w with
  | false => exact ⟨s.setErrIllegal, runCommand_of_illegal hlegal s⟩
  | true =>
    obtain ⟨i, hi⟩ := (exists_decode_iff_legal w).2 hlegal
    obtain ⟨t, ht, -⟩ := exec_completes i s
    exact ⟨t, (runCommand_of_decode hi s).trans ht⟩

theorem memWrite_completes (addr : RegAddr) (n : Nat) (v : Word) (s : State) : ∃ t, memWrite addr n v s = .next t := by
  cases hok : accessOk addr n with
  | false => exact ⟨_, memWrite_bad hok v s⟩
  | true =>
    obtain ⟨rfl, halign⟩ := (accessOk_iff addr n).1 hok
    by_cases hcmd : addr = 0x000
    · rw [hcmd, memWrite_cmd]
      exact withResponse_completes .completed (runCommand_completes v s)
    · exact ⟨_, memWrite_register halign hcmd v s⟩

theorem runAccess_completes (a : Access) (s : State) : ∃ t, runAccess a s = .next t := by
  cases a with
  | read addr n => exact ⟨_, rfl⟩
  | write addr n v => exact memWrite_completes addr n v s

theorem step_of_resetLevel {s : State} {asserted : Bool} {rest : List HostEvent}
    (h : s.pending = .resetLevel asserted :: rest) : step s = .next ((s.withPending rest).resetLevel asserted) := by
  simp [step, takeEvent, h, runEvent]

theorem step_of_access_inReset {s : State} {a : Access} {rest : List HostEvent} (hreset : s.inReset = true)
    (h : s.pending = .access a :: rest) : step s = .refused (.accessDuringReset a) := by
  simp [step, takeEvent, h, runEvent, hreset]

/-- A step with no access in reset is idle, takes a level of the reset input, or takes an access that is accepted. -/
theorem step_completes {s : State} (hsafe : s.SafeStep) : ∃ t, step s = .next t := by
  match hpending : s.pending with
  | [] => exact ⟨s, step_of_idle hpending⟩
  | .resetLevel asserted :: rest => exact ⟨_, step_of_resetLevel hpending⟩
  | .access a :: rest =>
    have hfaces : s.Faces a rest := ⟨Bool.eq_false_iff.2 fun hreset => hsafe hreset a rest hpending, hpending⟩
    rw [step_of_faces hfaces]
    exact runAccess_completes a (s.withPending rest)

/-- Settles O39: every event but an access in reset completes, and that access is refused by its name. -/
theorem stepHasANextStateUnlessAccessedInReset : Obligations.StepHasANextStateUnlessAccessedInReset :=
  fun _ => ⟨step_completes, fun _ _ => step_of_access_inReset⟩

end Sys2Proof.Machine

/-! PROOFS. Reset (70_reset_and_hazards.md): what the registers read after it, and what its release leaves of the
state. -/

namespace Sys2Proof.Machine

/-! ### The register space after a power-on reset (R146, R148) -/

/-- A register other than a window word is found at its offset alone (R52). -/
theorem eq_offsetOf_of_registerAt {addr : RegAddr} {r : Register} (h : registerAt addr = some r)
    (hraw : ∀ i, r ≠ .raw i) (hplain : ∀ i, r ≠ .plain i) : addr = offsetOf r := by
  unfold registerAt at h
  split at h
  case h_20 =>
    split at h
    next => exact absurd (Option.some.inj h).symm (hraw _)
    next =>
      split at h
      next => exact absurd (Option.some.inj h).symm (hplain _)
      next => cases h
  all_goals
    cases h
    rfl

@[simp] theorem windowWord_nil (i : Byte) : windowWord [] i = 0 := if_neg (Nat.not_lt_zero _)

theorem bitAt_false (i : Nat) : bitAt false i = 0 := by
  simp [bitAt]

theorem State.statusWord_resetWith (p : Params) : (State.resetWith p).statusWord = 0 := by
  simp [State.statusWord, State.resetWith, RxState.code, bitAt_false]

theorem State.ctrlWord_resetWith (p : Params) : (State.resetWith p).ctrlWord = 0 := by
  simp [State.ctrlWord, State.resetWith, bitAt_false]

theorem ParseResults.resultWord_clear : ParseResults.clear.resultWord = 0 := by
  decide

theorem State.readRegister_resetWith (p : Params) {r : Register} (hid : r ≠ .id) (hparam : r ≠ .param) :
    (State.resetWith p).readRegister r = 0 := by
  cases r with
  | id => exact absurd rfl hid
  | param => exact absurd rfl hparam
  | status => exact State.statusWord_resetWith p
  | ctrl => exact State.ctrlWord_resetWith p
  | dsLast => simp [State.readRegister, State.resetWith, bitAt_false]
  | rxResult => exact ParseResults.resultWord_clear
  | raw i | plain i => exact windowWord_nil i
  | _ => rfl

/-- After reset no word but ID and PARAM shows anything: a register's components are cleared, and an unmapped word
reads 0. -/
theorem State.readWord_resetWith (p : Params) {addr : RegAddr} (hid : addr ≠ 0x00C) (hparam : addr ≠ 0x010) :
    (State.resetWith p).readWord addr = 0 := by
  unfold State.readWord
  split
  next r hr =>
    refine readRegister_resetWith p ?_ ?_
    · rintro rfl
      exact hid (eq_offsetOf_of_registerAt hr nofun nofun)
    · rintro rfl
      exact hparam (eq_offsetOf_of_registerAt hr nofun nofun)
  next => rfl

/-- Settles O59: ID and PARAM read as in every state, every other word shows nothing after reset, and the rest is
read off the reset state. -/
theorem resetReadsZeroExceptIdAndParam : Obligations.ResetReadsZeroExceptIdAndParam := by
  intro p addr
  obtain ⟨-, hid, hparam, -⟩ := registerValues (State.resetWith p)
  have hrxMax : ((State.resetWith p).readWord 0x010).toNat = p.rxMax := hparam
  refine ⟨?_, rfl, rfl, rfl, rfl, rfl, rfl⟩
  split
  next haddr => rw [haddr, hid]
  next hnotId =>
    split
    next haddr => rw [haddr, ← hrxMax, BitVec.ofNat_toNat, BitVec.setWidth_eq]
    next hnotParam => exact State.readWord_resetWith p hnotId hnotParam

/-! ### The release of reset (R146, R147) -/

/-- Releasing an asserted reset keeps the ports, and the parameters, the input and the record (log entry 7). -/
theorem State.resetLevel_release (s : State) (h : s.inReset = true) :
    s.resetLevel false = { State.resetWith s.params with
      txOut := s.txOut, dsOut := s.dsOut, pending := s.pending, responses := s.responses } := by
  simp [State.resetLevel, h, State.applyReset, State.resetWith]

/-- Settles O60: the step takes the level, and the level is a release. -/
theorem releasingResetKeepsOnlyTheOutputPorts : Obligations.ReleasingResetKeepsOnlyTheOutputPorts := by
  intro s rest hreset hpending
  exact (step_of_resetLevel hpending).trans (congrArg _ ((s.withPending rest).resetLevel_release hreset))

end Sys2Proof.Machine
